-- ==== Sys2Proof/Word.lean ====
section
/-! DEFINITION. The bit-vector types of the block: register contents, register numbers and the transaction word
(10_state.md R20, 30_encoding.md R80). -/

namespace Sys2Proof

/-- The contents of one register: 32 bits (20_memory.md R61). -/
abbrev Word := BitVec 32

/-- A register number `0x00..0x3F` (20_memory.md R60). -/
abbrev RegNo := BitVec 6

/-- The transaction word T39: `we` in bit 38, `addr` in bits 37:32, `wdata` in bits 31:0 (30_encoding.md R80). -/
abbrev T39 := BitVec 39

end Sys2Proof
end

