-- ==== Sys2Proof/Syntax.lean ====
section
/-! DEFINITION. The operations the host can ask for: one constructor per row of spec/opcode_table.json. -/

namespace Sys2Proof

/-- The host's transactions (43_commands.md). The seven commands are writes to CMD (0x03) with the opcode as data. -/
inductive Instr where
  /-- NOP, R162. -/
  | nop
  /-- START, R166. -/
  | start
  /-- LOAD, R165. -/
  | load
  /-- STEP, R168. -/
  | step
  /-- RUN, R169. -/
  | run
  /-- EVAL, R170. -/
  | eval
  /-- CLEAR, R171. -/
  | clear
  /-- CMD.ILLEGAL, R163: a write to CMD whose data `v` is no opcode. -/
  | cmdIllegal (v : Word)
  /-- WR, R161: a write to a register other than CMD. -/
  | wr (addr : RegNo) (wdata : Word)
  /-- RD, R160: a read; the `wdata` bits of a read are ignored and no part of the instruction (R80). -/
  | rd (addr : RegNo)
  deriving DecidableEq, Repr

end Sys2Proof
end

