-- ==== Sys2Proof/WellFormed.lean ====
section
/-! DEFINITION. Which terms of `Instr` are transactions of the table: the constraints on its operand fields. -/

namespace Sys2Proof

/-- The table's operand constraints: CMD.ILLEGAL has `v >= 7` (30_encoding.md R84) and WR has `addr != 0x03` (R83).
Every other field takes every value. -/
def Instr.wf : Instr → Bool
  | .nop => true
  | .start => true
  | .load => true
  | .step => true
  | .run => true
  | .eval => true
  | .clear => true
  | .cmdIllegal v => decide (7 ≤ v.toNat)
  | .wr addr _ => decide (addr ≠ 0x03#6)
  | .rd _ => true

end Sys2Proof
end

