-- ==== Sys2Proof/Decode.lean ====
section
/-! DEFINITION. Decoding and encoding of the transaction word T39 (30_encoding.md R80 to R84), and the rows of
spec/opcode_table.json as data. -/

namespace Sys2Proof

/-- The `we` field, bit 38. -/
def weField (w : T39) : Bool := w.getLsbD 38

/-- The `addr` field, bits 37:32. -/
def addrField (w : T39) : RegNo := w.extractLsb' 32 6

/-- The `wdata` field, bits 31:0. -/
def wdataField (w : T39) : Word := w.extractLsb' 0 32

/-- The number of register CMD. -/
abbrev cmdNo : RegNo := 0x03#6

/-- The command the data of a write to CMD selects (R83): all 32 bits are compared. -/
def decodeCommand (v : Word) : Instr :=
  if v = 0 then .nop
  else if v = 1 then .start
  else if v = 2 then .load
  else if v = 3 then .step
  else if v = 4 then .run
  else if v = 5 then .eval
  else if v = 6 then .clear
  else .cmdIllegal v

/-- The decoder. Total: "every one of the 2^39 transaction words has exactly one defined effect" (R84). -/
def decode (w : T39) : Instr :=
  if weField w then
    if addrField w = cmdNo then decodeCommand (wdataField w) else .wr (addrField w) (wdataField w)
  else .rd (addrField w)

/-- Why a string of bits is no transaction. -/
inductive DecodeError where
  /-- A one at or above bit 39: T39 has 39 bits, "the top bit always 0" of its ten hexadecimal digits (R80). -/
  | bitAboveT39
  deriving DecidableEq, Repr

/-- Decoding of any natural number as a transaction: the 39-bit words decode, every other number is rejected by name. -/
def decodeBits (w : Nat) : Except DecodeError Instr :=
  if w < 2 ^ 39 then .ok (decode (BitVec.ofNat 39 w)) else .error .bitAboveT39

/-- The fields of a T39 word put together (R80). -/
def packT39 (we : Bool) (addr : RegNo) (wdata : Word) : T39 :=
  BitVec.ofBool we ++ addr ++ wdata

/-- The word of an instruction, from the same map (R83); a read carries the canonical data 0 (R80). -/
def encode : Instr → T39
  | .nop => packT39 true cmdNo 0
  | .start => packT39 true cmdNo 1
  | .load => packT39 true cmdNo 2
  | .step => packT39 true cmdNo 3
  | .run => packT39 true cmdNo 4
  | .eval => packT39 true cmdNo 5
  | .clear => packT39 true cmdNo 6
  | .cmdIllegal v => packT39 true cmdNo v
  | .wr addr wdata => packT39 true addr wdata
  | .rd addr => packT39 false addr 0

/-- The mnemonic of spec/opcode_table.json that an instruction stands for. -/
def mnemonicOf : Instr → String
  | .nop => "NOP"
  | .start => "START"
  | .load => "LOAD"
  | .step => "STEP"
  | .run => "RUN"
  | .eval => "EVAL"
  | .clear => "CLEAR"
  | .cmdIllegal _ => "CMD.ILLEGAL"
  | .wr _ _ => "WR"
  | .rd _ => "RD"

/-- One row of spec/opcode_table.json: a word matches when `word & mask = pattern` (R82). -/
structure OpcodeRow where
  mnemonic : String
  mask : T39
  pattern : T39
  deriving DecidableEq, Repr

/-- The ten rows of spec/opcode_table.json in its order (R82: "top to bottom"). -/
def opcodeRows : List OpcodeRow :=
  [⟨"NOP", 0x7FFFFFFFFF, 0x4300000000⟩,
   ⟨"START", 0x7FFFFFFFFF, 0x4300000001⟩,
   ⟨"LOAD", 0x7FFFFFFFFF, 0x4300000002⟩,
   ⟨"STEP", 0x7FFFFFFFFF, 0x4300000003⟩,
   ⟨"RUN", 0x7FFFFFFFFF, 0x4300000004⟩,
   ⟨"EVAL", 0x7FFFFFFFFF, 0x4300000005⟩,
   ⟨"CLEAR", 0x7FFFFFFFFF, 0x4300000006⟩,
   ⟨"CMD.ILLEGAL", 0x7F00000000, 0x4300000000⟩,
   ⟨"WR", 0x4000000000, 0x4000000000⟩,
   ⟨"RD", 0x4000000000, 0x0000000000⟩]

/-- The first row a word matches (R82). -/
def firstRow (w : T39) : Option OpcodeRow :=
  opcodeRows.find? fun row => decide (w &&& row.mask = row.pattern)

/-- The instruction read from `nbits` bits of `w`, numbered as the table numbers them. A transaction word is the whole
instruction; it has no operand words. -/
def decodeTableWord (nbits w : Nat) : Option Instr :=
  match decodeBits (w % 2 ^ nbits) with
  | .ok i => some i
  | .error _ => none

end Sys2Proof
end

