-- ==== Sys2Proof/Config.lean ====
section
/-! DEFINITION. The parameters of one instance of the block (00_scope.md R6). The block has no undefined value
(93_implementation_defined.md, end of Part 2), so this file holds no free value. -/

namespace Sys2Proof

/-- The configuration record of R6: fixed for an instance, never written by a step.
`critTable[k - 1]` is the spec's `CRIT_TABLE[k]` (keys 1..16), in units of 1/1000. -/
structure Config where
  wmax : Nat
  lmax : Nat
  tEval : Nat
  critTable : Vector Word 16
  deriving DecidableEq, Repr

/-- `CRIT_SCALE`, "fixed at 1000" (R6). -/
abbrev critScale : Nat := 1000

/-- The default `CRIT_TABLE` of 42_chi_squared_test.md R147. PRESUMED by the spec itself: "from general knowledge,
not in source" (93_implementation_defined.md G1); notes/assumptions/2.md. -/
def defaultCritTable : Vector Word 16 :=
  #v[3841, 5991, 7815, 9488, 11070, 12592, 14067, 15507,
     16919, 18307, 19675, 21026, 22362, 23685, 24996, 26296]

/-- The default parameters of R6. -/
def defaultConfig : Config where
  wmax := 32
  lmax := 2 ^ 31 - 1
  tEval := 1
  critTable := defaultCritTable

/-- The legal ranges of R6: `WMAX` in 1..32, `LMAX` in 1..2^31-1, `T_EVAL >= 1`, and a table that is
non-decreasing in the key (R147). -/
abbrev Config.Legal (c : Config) : Prop :=
  (1 ≤ c.wmax ∧ c.wmax ≤ 32) ∧ (1 ≤ c.lmax ∧ c.lmax ≤ 2 ^ 31 - 1) ∧ 1 ≤ c.tEval ∧
    ∀ k : Fin 15, c.critTable[k.val] ≤ c.critTable[k.val + 1]

end Sys2Proof
end

