-- ==== Sys2Proof/Machine/State.lean ====
section
/-! DEFINITION. The state of the block as plain data (10_state.md), its state after reset (R58), and the reasons a step
could stop. -/

namespace Sys2Proof.Machine

/-- The sequencer's phase (R40). -/
inductive Phase where
  | idle
  | run
  | eval
  deriving DecidableEq, Repr

/-- The error causes of 60_exceptions.md R190; codes 9..15 never occur. -/
inductive Cause where
  | none
  | eCmd
  | eWidth
  | eMismatch
  | eStray
  | eLen
  | eState
  | eWidth2
  | eDomain
  deriving DecidableEq, Repr

/-- The operand group (R22, R29 to R32): nine 32-bit registers the host stages its inputs in. -/
structure OperandRegs where
  len : Word
  p1 : Word
  p1len : Word
  s1 : Word
  s1len : Word
  p2 : Word
  p2len : Word
  s2 : Word
  s2len : Word
  deriving DecidableEq, Repr

/-- One LFSR_engine instance (40_lfsr_engine.md R104): Register State `r`, taps `t`, width `w`. LFSR1 is
(R1, TAP1, W1), LFSR2 is (R2, TAP2, W2). `r` and `t` are `WMAX` bits wide, held in 32 bits with zeros above
(R33, R34; notes/assumptions/3.md). -/
structure Engine where
  r : Word
  t : Word
  w : BitVec 6
  deriving DecidableEq, Repr

/-- The frequency accumulator (R38). -/
structure Accumulator where
  m : Word
  c0 : Word
  c1 : Word
  deriving DecidableEq, Repr

/-- The four elements register LASTOUT shows (R39). -/
structure LastOut where
  ld : Bool
  lc : Bool
  lv : Bool
  sv : Bool
  deriving DecidableEq, Repr

/-- The sequencer (R40 to R43). ECNT is "wide enough for `T_EVAL`", so a natural number. -/
structure Sequencer where
  phase : Phase
  rem : Word
  ecnt : Nat
  chain : Bool
  deriving DecidableEq, Repr

/-- The status flags that are state (R44 to R46); RESV stands with the results it qualifies. -/
structure Status where
  loaded : Bool
  err : Bool
  cause : Cause
  einfo : BitVec 2
  busywr : Bool
  deriving DecidableEq, Repr

/-- The result group (R47 to R52) with its valid flag RESV (R44). -/
structure Results where
  resv : Bool
  period : BitVec 64
  chiNum : BitVec 64
  chiDen : Word
  chiMilli : BitVec 64
  df : BitVec 1
  key : BitVec 5
  crit : Word
  uniform : Bool
  undef : Bool
  deriving DecidableEq, Repr

/-- The model-only records of R57, oldest bit first. -/
structure Records where
  outseq : List Bool
  dseq : List Bool
  cseq : List Bool
  deriving DecidableEq, Repr

/-- The input pins at one edge (R56), as the host drives them. -/
structure PinSample where
  rst : Bool
  hValid : Bool
  hWe : Bool
  hAddr : RegNo
  hWdata : Word
  deriving DecidableEq, Repr

/-- The block. `cfg` is the instance's parameters (R6), written by nothing. `inputs` is the MODEL's own field: the pin
samples of the coming edges, oldest first, the empty list standing for a host that presents nothing
(notes/assumptions/1.md). `hRdata` is the MODEL's own record of pin `h_rdata` in the cycle that ended at the latest edge
(notes/assumptions/4.md). -/
structure State where
  cfg : Config
  ops : OperandRegs
  lfsr1 : Engine
  lfsr2 : Engine
  steps : Word
  acc : Accumulator
  last : LastOut
  seq : Sequencer
  status : Status
  res : Results
  recs : Records
  inputs : List PinSample
  hRdata : Word
  deriving DecidableEq, Repr

/-- Why a step would stop with a fault. No constructor: "The hardware never traps, hangs or gives an undefined result"
(00_scope.md R17); an error is reported in STATUS by a next state (60_exceptions.md R202). Nobody raises one; safe. -/
inductive Fault where
  deriving DecidableEq, Repr

/-- Why a step would be refused. -/
inductive Refusal where
  /-- Raised only by an arm of `exec` that has no meaning yet, under the instruction's name; no arm of this model
  raises it. Safe: the model stops where the hardware goes on. -/
  | notModelled (mnemonic : String)
  deriving DecidableEq, Repr

/-- The operand group after reset (R58). -/
def OperandRegs.zero : OperandRegs := ⟨0, 0, 0, 0, 0, 0, 0, 0, 0⟩

/-- An engine after reset (R58, R104). -/
def Engine.zero : Engine := ⟨0, 0, 0⟩

/-- The accumulator after reset (R58). -/
def Accumulator.zero : Accumulator := ⟨0, 0, 0⟩

/-- LD, LC, LV, SV after reset (R58). -/
def LastOut.zero : LastOut := ⟨false, false, false, false⟩

/-- The sequencer after reset (R58). -/
def Sequencer.zero : Sequencer := ⟨.idle, 0, 0, false⟩

/-- The status flags after reset (R58). -/
def Status.zero : Status := ⟨false, false, .none, 0, false⟩

/-- The result group after reset and after `ClearResults` (R53, R58). -/
def Results.zero : Results := ⟨false, 0, 0, 0, 0, 0, 0, 0, false, false⟩

/-- The records after reset (R58). -/
def Records.empty : Records := ⟨[], [], []⟩

/-- The machine right after reset, with the default parameters (R58, R6): every element 0, PHASE = IDLE, the records
empty; the model's own fields hold no pending input and 0 (notes/assumptions/1.md, 4.md). -/
def State.reset : State where
  cfg := defaultConfig
  ops := OperandRegs.zero
  lfsr1 := Engine.zero
  lfsr2 := Engine.zero
  steps := 0
  acc := Accumulator.zero
  last := LastOut.zero
  seq := Sequencer.zero
  status := Status.zero
  res := Results.zero
  recs := Records.empty
  inputs := []
  hRdata := 0

end Sys2Proof.Machine
end

