-- ==== Sys2Proof/Machine/Operands.lean ====
section
/-! DEFINITION. The operand forms: bit-strings held in registers (00_scope.md R7, 30_encoding.md R85) and the
configuration check START and LOAD share (43_commands.md R164). -/

namespace Sys2Proof.Machine

/-- `mask(w) = 2^w - 1` in 32 bits (R8); all ones for `w >= 32`. -/
def mask (w : Nat) : Word := BitVec.ofNat 32 (2 ^ w - 1)

/-- `parity(v)`: the XOR of all bits of `v` (R8). -/
def parity (v : Word) : Bool := (List.range 32).foldl (fun p i => Bool.xor p (v.getLsbD i)) false

/-- The value of a bit-string: element `i` in bit `i` (R7, R85). -/
def assembleBits : List Bool → Nat
  | [] => 0
  | b :: bs => b.toNat + 2 * assembleBits bs

/-- The error a command reports: what `raise E(info)` writes (60_exceptions.md R195). -/
structure Raised where
  cause : Cause
  einfo : BitVec 2
  deriving DecidableEq, Repr

/-- The value of EINFO that names the LFSRs failing a check: bit 0 = LFSR1, bit 1 = LFSR2 (R45, R164). -/
def einfoOf (bad1 bad2 : Bool) : BitVec 2 := BitVec.ofBool bad2 ++ BitVec.ofBool bad1

/-- Check 1 of R164 fails for a pair of lengths: some length is not in `1..WMAX`. -/
def widthBad (wmax : Nat) (plen slen : Word) : Bool :=
  !(decide (1 ≤ plen.toNat ∧ plen.toNat ≤ wmax) && decide (1 ≤ slen.toNat ∧ slen.toNat ≤ wmax))

/-- Check 2 of R164 fails: the lengths of polynomial and seed differ. -/
def lengthsDiffer (plen slen : Word) : Bool := decide (plen ≠ slen)

/-- Check 3 of R164 fails: a 1 at or above the declared length ("shift by 32 gives 0"). -/
def strayBits (p plen s slen : Word) : Bool :=
  decide (p >>> plen.toNat ≠ 0) || decide (s >>> slen.toNat ≠ 0)

/-- `CheckConfig` (R164): `none` when it passes, else the first of the three checks that fails, naming every LFSR
that fails it. -/
def checkConfig (cfg : Config) (o : OperandRegs) : Option Raised :=
  let bad1 := widthBad cfg.wmax o.p1len o.s1len
  let bad2 := widthBad cfg.wmax o.p2len o.s2len
  let mis1 := lengthsDiffer o.p1len o.s1len
  let mis2 := lengthsDiffer o.p2len o.s2len
  let str1 := strayBits o.p1 o.p1len o.s1 o.s1len
  let str2 := strayBits o.p2 o.p2len o.s2 o.s2len
  if bad1 || bad2 then some ⟨.eWidth, einfoOf bad1 bad2⟩
  else if mis1 || mis2 then some ⟨.eMismatch, einfoOf mis1 mis2⟩
  else if str1 || str2 then some ⟨.eStray, einfoOf str1 str2⟩
  else none

end Sys2Proof.Machine
end

