-- ==== Sys2Proof/Machine/ChiSquared.lean ====
section
/-! DEFINITION. Unit chi_squared_statistical_test (42_chi_squared_test.md): the accumulator, `Evaluate` and its parts,
and the module's behaviour at an edge. -/

namespace Sys2Proof.Machine

/-- `Accumulate` (R130). -/
def accumulate (keep bit : Bool) (a : Accumulator) : Accumulator :=
  if keep then
    { m := a.m + 1
      c0 := if bit then a.c0 else a.c0 + 1
      c1 := if bit then a.c1 + 1 else a.c1 }
  else a

/-- `NSYM`: the number of distinct symbols observed (R131). -/
def symbolsObserved (c0 c1 : Nat) : Nat := (if 0 < c0 then 1 else 0) + (if 0 < c1 then 1 else 0)

/-- `|C0 - C1|` (R8). -/
def absDiff (a b : Nat) : Nat := (a - b) + (b - a)

/-- The structural period `(2^W1 - 1) * 2^(W2 - 1)` (R138), for `W2 >= 1`. -/
def periodOf (w1 w2 : Nat) : Nat := (2 ^ w1 - 1) * 2 ^ (w2 - 1)

/-- `CHI_NUM` (R141). -/
def chiNumOf (c0 c1 : Nat) : Nat := absDiff c0 c1 ^ 2

/-- `CHI_DEN` (R141): `M` when both symbols were observed, `2 * M` when one was. -/
def chiDenOf (c0 c1 : Nat) : Nat :=
  if symbolsObserved c0 c1 = 2 then c0 + c1 else 2 * (c0 + c1)

/-- `CHI_MILLI` (R142). -/
def chiMilliOf (c0 c1 : Nat) : Nat := critScale * chiNumOf c0 c1 / chiDenOf c0 c1

/-- `KEY = min(M - 1, 16)` (R144), for `M >= 1`. -/
def keyOf (m : Nat) : Nat := min (m - 1) 16

/-- `CRITROM[k]` (10_state.md R55). The ROM has keys 1..16 only and is never read at another one (20_memory.md R74); the
0 there is no value of the hardware. -/
def critRom (cfg : Config) (k : Nat) : Word :=
  if h : 1 ≤ k ∧ k ≤ 16 then cfg.critTable[k - 1] else 0

/-- The verdict (R148): `1000 * CHI_NUM < CRITROM[KEY] * CHI_DEN`, strict and exact. -/
def verdict (cfg : Config) (c0 c1 : Nat) : Bool :=
  decide (critScale * chiNumOf c0 c1 < (critRom cfg (keyOf (c0 + c1))).toNat * chiDenOf c0 c1)

/-- The result group a successful evaluation writes (R133, R150). -/
def resultsOf (cfg : Config) (w1 w2 c0 c1 : Nat) : Results where
  resv := true
  period := BitVec.ofNat 64 (periodOf w1 w2)
  chiNum := BitVec.ofNat 64 (chiNumOf c0 c1)
  chiDen := BitVec.ofNat 32 (chiDenOf c0 c1)
  chiMilli := BitVec.ofNat 64 (chiMilliOf c0 c1)
  df := BitVec.ofNat 1 (symbolsObserved c0 c1 - 1)
  key := BitVec.ofNat 5 (keyOf (c0 + c1))
  crit := if symbolsObserved c0 c1 = 1 then 0 else critRom cfg (keyOf (c0 + c1))
  uniform := if symbolsObserved c0 c1 = 1 then false else verdict cfg c0 c1
  undef := decide (symbolsObserved c0 c1 = 1)

/-- `Evaluate` (R133): the width check, then the empty-sequence check (R136), then the results. A pure function (R134). -/
def evaluate (cfg : Config) (w1 w2 c0 c1 : Nat) : Except Raised Results :=
  if w2 < 1 then .error ⟨.eWidth2, 0b10#2⟩
  else if c0 + c1 = 0 then .error ⟨.eDomain, 0⟩
  else .ok (resultsOf cfg w1 w2 c0 c1)

/-- The accumulator at an edge with its strobes (R152): `rst`, else `clr`, else `in_valid`. -/
def accumulatorEdge (rst clr inValid inBit : Bool) (a : Accumulator) : Accumulator :=
  if rst then Accumulator.zero
  else if clr then Accumulator.zero
  else accumulate inValid inBit a

/-- The result group at an edge with its strobes (R152): `rst` zeroes it; `eval_done` wins over `clr_results`. A failed
evaluation clears it (R150). -/
def resultsEdge (rst clrResults evalDone : Bool) (cfg : Config) (w1 w2 c0 c1 : Nat) (r : Results) : Results :=
  if rst then Results.zero
  else if evalDone then
    match evaluate cfg w1 w2 c0 c1 with
    | .ok r' => r'
    | .error _ => Results.zero
  else if clrResults then Results.zero
  else r

end Sys2Proof.Machine
end

