-- ==== Sys2Proof/Machine/Combiner.lean ====
section
/-! DEFINITION. Unit shrinking_generator_combiner (41_shrinking_combiner.md). -/

namespace Sys2Proof.Machine

/-- `CombineBit` (R121): `keep` and the surviving bit, 0 when nothing is kept. -/
def combineBit (d c : Bool) : Bool × Bool := (c, d && c)

/-- `combine` on lists (R120), to the shorter length (R124). -/
def combine : List Bool → List Bool → List Bool
  | d :: ds, c :: cs => if c then d :: combine ds cs else combine ds cs
  | _, _ => []

/-- The unit's outputs `keep_valid`, `keep_bit` (R126). -/
def combinerPorts (pairValid d c : Bool) : Bool × Bool := (pairValid && c, pairValid && c && d)

end Sys2Proof.Machine
end

