-- ==== Sys2Proof/Machine/Flags.lean ====
section
/-! DEFINITION. The status flags and the views assembled from state: STATUS (10_state.md R28), LASTOUT (R39), RESULT
(R52), CAP (R25), and what a command writes into ERR, CAUSE, EINFO (R45). -/

namespace Sys2Proof.Machine

/-- The 4-bit code of a cause (60_exceptions.md R190). -/
def causeCode : Cause → BitVec 4
  | .none => 0
  | .eCmd => 1
  | .eWidth => 2
  | .eMismatch => 3
  | .eStray => 4
  | .eLen => 5
  | .eState => 6
  | .eWidth2 => 7
  | .eDomain => 8

/-- The 2-bit code of a phase (R28, R40). -/
def phaseCode : Phase → BitVec 2
  | .idle => 0
  | .run => 1
  | .eval => 2

/-- `BUSY = [PHASE != IDLE]` (R40). -/
def State.busy (s : State) : Bool :=
  match s.seq.phase with
  | .idle => false
  | .run => true
  | .eval => true

/-- The word STATUS reads (R28). -/
def statusWord (s : State) : Word :=
  0#18 ++ BitVec.ofBool s.seq.chain ++ phaseCode s.seq.phase ++ BitVec.ofBool s.status.busywr ++ s.status.einfo ++
    causeCode s.status.cause ++ BitVec.ofBool s.status.err ++ BitVec.ofBool s.res.resv ++
    BitVec.ofBool s.status.loaded ++ BitVec.ofBool s.busy

/-- The word LASTOUT reads (R39). -/
def lastOutWord (l : LastOut) : Word :=
  0#28 ++ BitVec.ofBool l.sv ++ BitVec.ofBool l.lv ++ BitVec.ofBool l.lc ++ BitVec.ofBool l.ld

/-- The word RESULT reads (R52). -/
def resultWord (r : Results) : Word :=
  0#30 ++ BitVec.ofBool r.undef ++ BitVec.ofBool r.uniform

/-- The word CAP reads (R25). -/
def capWord (cfg : Config) : Word :=
  BitVec.ofNat 16 critScale ++ 0#3 ++ 16#5 ++ 0#2 ++ BitVec.ofNat 6 cfg.wmax

/-- The constant ID reads (R24). -/
def idWord : Word := 0x354C4307

/-- What success leaves in ERR, CAUSE, EINFO (R45). -/
def clearErrorFlags (f : Status) : Status := { f with err := false, cause := .none, einfo := 0 }

/-- What failure leaves in ERR, CAUSE, EINFO (R45, R195). -/
def raiseErrorFlags (cause : Cause) (einfo : BitVec 2) (f : Status) : Status :=
  { f with err := true, cause := cause, einfo := einfo }

end Sys2Proof.Machine
end

