-- ==== Sys2Proof/Machine/Lfsr.lean ====
section
/-! DEFINITION. Unit LFSR_engine (40_lfsr_engine.md): the step on register values, the step and `generate` on lists of
bits, and the module's behaviour at an edge. -/

namespace Sys2Proof.Machine

/-- `out = (R >> (w-1)) & 1` (R102); 0 when `W = 0` (R104). -/
def lfsrOut (r : Word) (w : Nat) : Bool :=
  match w with
  | 0 => false
  | n + 1 => r.getLsbD n

/-- `R' = ((R << 1) | parity(R & T)) mod 2^w` (R102). With `w = 0` it is 0, so that a register of an engine that was
never loaded stays 0 (R104). -/
def lfsrNext (r t : Word) (w : Nat) : Word :=
  ((r <<< 1) ||| (BitVec.ofBool (parity (r &&& t))).setWidth 32) &&& mask w

/-- The feedback bit on lists: the XOR of the elements of the register at the positions the polynomial selects
(R101). -/
def listFeedback : List Bool → List Bool → Bool
  | r :: rs, t :: ts => Bool.xor (r && t) (listFeedback rs ts)
  | _, _ => false

/-- `LfsrStep` on a `Bit[w]` written as a list, element 0 first (R101): the last element is emitted, the feedback enters
at element 0. -/
def listStep (r t : List Bool) : Bool × List Bool :=
  (r.getLastD false, (listFeedback r t :: r.dropLast).take r.length)

/-- `generate(seed, polynomial, n)` on lists (R100, R103): the emitted bits and the register after `n` steps. -/
def listGenerate (r t : List Bool) : Nat → List Bool × List Bool
  | 0 => ([], r)
  | n + 1 =>
    let (out, r') := listStep r t
    let (outs, rn) := listGenerate r' t n
    (out :: outs, rn)

/-- The first `w` bits of a register as a list, element 0 first (R7). -/
def bitsOf (w : Nat) (v : Word) : List Bool := (List.range w).map v.getLsbD

/-- The unit's combinational output `out_bit` (R104). -/
def engineOut (e : Engine) : Bool := lfsrOut e.r e.w.toNat

/-- The unit after a step strobe (R104). -/
def engineStep (e : Engine) : Engine := { e with r := lfsrNext e.r e.t e.w.toNat }

/-- The unit at an edge with its strobes (R104): `rst` before `load` before `step`, else hold. -/
def engineEdge (rst load step : Bool) (seed poly : Word) (width : BitVec 6) (e : Engine) : Engine :=
  if rst then Engine.zero
  else if load then ⟨seed, poly, width⟩
  else if step then engineStep e
  else e

end Sys2Proof.Machine
end

