-- ==== Sys2Proof/Machine/Ops.lean ====
section
/-! DEFINITION. The named operations over registers, pins and status: the register map and its one reader and one
writer, reporting an error, `ClearResults`, the landing of a host write, reset, and the pins presented at an edge. -/

namespace Sys2Proof.Machine

/-- The registers of the map of 10_state.md R20. -/
inductive RegName where
  | id | cap | lmaxr | cmd | status | len
  | p1 | p1len | s1 | s1len | p2 | p2len | s2 | s2len
  | r1 | tap1 | w1 | r2 | tap2 | w2 | steps | m | c0 | c1 | lastout | rem
  | periodLo | periodHi | chiNumLo | chiNumHi | chiDen | chiMilliLo | chiMilliHi
  | df | key | crit | result
  /-- CRITROM[k], register `0x2F + k` (R55). -/
  | critrom (k : Nat)
  /-- The reserved numbers of R54. -/
  | reserved
  deriving DecidableEq, Repr

/-- The register a number names (R20, R54, R55). -/
def regName (a : RegNo) : RegName :=
  match a.toNat with
  | 0x00 => .id
  | 0x01 => .cap
  | 0x02 => .lmaxr
  | 0x03 => .cmd
  | 0x04 => .status
  | 0x05 => .len
  | 0x08 => .p1
  | 0x09 => .p1len
  | 0x0A => .s1
  | 0x0B => .s1len
  | 0x0C => .p2
  | 0x0D => .p2len
  | 0x0E => .s2
  | 0x0F => .s2len
  | 0x10 => .r1
  | 0x11 => .tap1
  | 0x12 => .w1
  | 0x13 => .r2
  | 0x14 => .tap2
  | 0x15 => .w2
  | 0x16 => .steps
  | 0x17 => .m
  | 0x18 => .c0
  | 0x19 => .c1
  | 0x1A => .lastout
  | 0x1B => .rem
  | 0x20 => .periodLo
  | 0x21 => .periodHi
  | 0x22 => .chiNumLo
  | 0x23 => .chiNumHi
  | 0x24 => .chiDen
  | 0x25 => .chiMilliLo
  | 0x26 => .chiMilliHi
  | 0x27 => .df
  | 0x28 => .key
  | 0x29 => .crit
  | 0x2A => .result
  | n => if 0x30 ≤ n then .critrom (n - 0x2F) else .reserved

/-- Bits 31:0 of a 64-bit result, the `_LO` register (20_memory.md R63). -/
def lowWord (v : BitVec 64) : Word := v.extractLsb' 0 32

/-- Bits 63:32 of a 64-bit result, the `_HI` register (20_memory.md R63). -/
def highWord (v : BitVec 64) : Word := v.extractLsb' 32 32

/-- The value of a named register (R62, with the rule of each element): narrower elements are zero-extended, CMD and
reserved numbers read 0. -/
def readName (s : State) : RegName → Word
  | .id => idWord
  | .cap => capWord s.cfg
  | .lmaxr => BitVec.ofNat 32 s.cfg.lmax
  | .cmd => 0
  | .status => statusWord s
  | .len => s.ops.len
  | .p1 => s.ops.p1
  | .p1len => s.ops.p1len
  | .s1 => s.ops.s1
  | .s1len => s.ops.s1len
  | .p2 => s.ops.p2
  | .p2len => s.ops.p2len
  | .s2 => s.ops.s2
  | .s2len => s.ops.s2len
  | .r1 => s.lfsr1.r
  | .tap1 => s.lfsr1.t
  | .w1 => s.lfsr1.w.setWidth 32
  | .r2 => s.lfsr2.r
  | .tap2 => s.lfsr2.t
  | .w2 => s.lfsr2.w.setWidth 32
  | .steps => s.steps
  | .m => s.acc.m
  | .c0 => s.acc.c0
  | .c1 => s.acc.c1
  | .lastout => lastOutWord s.last
  | .rem => s.seq.rem
  | .periodLo => lowWord s.res.period
  | .periodHi => highWord s.res.period
  | .chiNumLo => lowWord s.res.chiNum
  | .chiNumHi => highWord s.res.chiNum
  | .chiDen => s.res.chiDen
  | .chiMilliLo => lowWord s.res.chiMilli
  | .chiMilliHi => highWord s.res.chiMilli
  | .df => s.res.df.setWidth 32
  | .key => s.res.key.setWidth 32
  | .crit => s.res.crit
  | .result => resultWord s.res
  | .critrom k => critRom s.cfg k
  | .reserved => 0

/-- `x[addr]`, the host read `MemRead(addr, 4)` (R62); it changes nothing. -/
def readReg (s : State) (addr : RegNo) : Word := readName s (regName addr)

/-- The operand group after a landed write to a register of the map (R21, R161): only the nine RW registers take the
value, all 32 bits; RO and reserved numbers ignore it. -/
def writeName (v : Word) (o : OperandRegs) : RegName → OperandRegs
  | .len => { o with len := v }
  | .p1 => { o with p1 := v }
  | .p1len => { o with p1len := v }
  | .s1 => { o with s1 := v }
  | .s1len => { o with s1len := v }
  | .p2 => { o with p2 := v }
  | .p2len => { o with p2len := v }
  | .s2 => { o with s2 := v }
  | .s2len => { o with s2len := v }
  | .id | .cap | .lmaxr | .cmd | .status => o
  | .r1 | .tap1 | .w1 | .r2 | .tap2 | .w2 | .steps | .m | .c0 | .c1 | .lastout | .rem => o
  | .periodLo | .periodHi | .chiNumLo | .chiNumHi | .chiDen | .chiMilliLo | .chiMilliHi => o
  | .df | .key | .crit | .result => o
  | .critrom _ => o
  | .reserved => o

/-- A landed write to a register other than CMD (R161). -/
def writeOperand (addr : RegNo) (v : Word) (s : State) : State :=
  { s with ops := writeName v s.ops (regName addr) }

/-- SV falls (R39: 0 at every edge that performs no generation step). -/
def lowerSv (s : State) : State := { s with last := { s.last with sv := false } }

/-- `raise E(info)` (60_exceptions.md R195), the analogue of taking an exception: ERR, CAUSE, EINFO and nothing else.
Nothing is saved and control goes nowhere. -/
def raiseError (e : Raised) (s : State) : State :=
  { s with status := raiseErrorFlags e.cause e.einfo s.status }

/-- Success: ERR, CAUSE, EINFO become 0 (R45). This, or the next error, is all the "return" there is (R199). -/
def clearError (s : State) : State := { s with status := clearErrorFlags s.status }

/-- `ClearResults` (R53). -/
def clearResults (s : State) : State := { s with res := Results.zero }

/-- A host write that arrives while `BUSY = 1` is dropped (R161, R46). -/
def dropWrite (s : State) : State := { s with status := { s.status with busywr := true } }

/-- The fate of a host write (R161, R172): dropped while busy and not decoded (R198); otherwise it lands, at an edge that
performs no generation step unless the effect itself does. -/
def hostWrite (effect : State → State) (s : State) : Host.Outcome State Fault Refusal :=
  if s.busy then .next (dropWrite s) else .next (effect (lowerSv s))

/-- Every state element at its reset value (R58, R220). The instance's parameters and the model's own fields are no
such elements and stay. -/
def resetBlock (s : State) : State :=
  { State.reset with cfg := s.cfg, inputs := s.inputs, hRdata := s.hRdata }

/-- Pins of a cycle in which the host presents nothing. -/
def idlePins : PinSample := ⟨false, false, false, 0, 0⟩

/-- Pins that present a transaction word (R80). -/
def pinsOfWord (w : T39) : PinSample := ⟨false, true, weField w, addrField w, wdataField w⟩

/-- The transaction word the pins carry, if they carry one: "A cycle with `h_valid = 0` carries no transaction" (R80). -/
def transactionOf (p : PinSample) : Option T39 :=
  if p.hValid then some (packT39 p.hWe p.hAddr p.hWdata) else none

/-- The pins at the coming edge. -/
def nextPins (s : State) : PinSample := s.inputs.headD idlePins

/-- The state with the coming edge's pins taken off the host's schedule and no read data recorded for it yet: `h_rdata`
is 0 unless a read is presented (R56). -/
def takePins (s : State) : State := { s with inputs := s.inputs.tail, hRdata := 0 }

/-- The state with a transaction word on the pins of the coming edge, in place of what stood there. -/
def presentWord (w : T39) (s : State) : State := { s with inputs := pinsOfWord w :: s.inputs.tail }

/-- Output pin `h_rdata` (R56): combinational, from the state before the edge; 0 unless a read is presented (V10 of
93_implementation_defined.md). -/
def hRdataPin (s : State) (p : PinSample) : Word :=
  if p.hValid && !p.hWe then readReg s p.hAddr else 0

/-- An edge with `rst = 1` (R220): everything at its reset value, the transaction ignored; `h_rdata` of that cycle still
shows the value before the reset. -/
def resetEdge (s : State) : State :=
  { resetBlock (takePins s) with hRdata := hRdataPin s (nextPins s) }

/-- Output pin `step_valid` (R56). -/
def stepValidPin (s : State) : Bool := s.last.sv

/-- Output pin `d_bit` (R56). -/
def dBitPin (s : State) : Bool := s.last.ld

/-- Output pin `c_bit` (R56). -/
def cBitPin (s : State) : Bool := s.last.lc

/-- Output pin `out_valid` (R56). -/
def outValidPin (s : State) : Bool := s.last.sv && s.last.lc

/-- Output pin `out_bit` (R56), forced 0 when `out_valid = 0`. -/
def outBitPin (s : State) : Bool := s.last.sv && s.last.lc && s.last.ld

end Sys2Proof.Machine
end

