-- ==== Sys2Proof/Machine/Sequencer.lean ====
section
/-! DEFINITION. The generation step and the sequencer (43_commands.md R167, R172). -/

namespace Sys2Proof.Machine

/-- `GenStep` (R167): both engines step at the same edge, the pair is combined and accumulated. -/
def genStep (s : State) : State :=
  let d := engineOut s.lfsr1
  let c := engineOut s.lfsr2
  let (keep, bit) := combineBit d c
  { s with
    lfsr1 := engineStep s.lfsr1
    lfsr2 := engineStep s.lfsr2
    steps := s.steps + 1
    acc := accumulate keep bit s.acc
    last := ⟨d, c, true, true⟩
    recs :=
      { outseq := if keep then s.recs.outseq ++ [bit] else s.recs.outseq
        dseq := s.recs.dseq ++ [d]
        cseq := s.recs.cseq ++ [c] } }

/-- `Evaluate` applied to the state (42_chi_squared_test.md R133): the results and a cleared error, or `ClearResults` and
the error (R150, 60_exceptions.md R195 (b)). -/
def applyEvaluate (s : State) : State :=
  match evaluate s.cfg s.lfsr1.w.toNat s.lfsr2.w.toNat s.acc.c0.toNat s.acc.c1.toNat with
  | .ok r => clearError { s with res := r }
  | .error e => raiseError e (clearResults s)

/-- The phase after the last step of a RUN phase (R172): EVAL with a fresh countdown for START, IDLE for RUN. -/
def endOfRun (tEval : Nat) (q : Sequencer) : Sequencer :=
  if q.chain then { q with phase := .eval, ecnt := tEval } else { q with phase := .idle }

/-- One edge of a RUN phase (R172). -/
def runEdge (s : State) : State :=
  let t := genStep s
  let q := { s.seq with rem := s.seq.rem - 1 }
  { t with seq := if s.seq.rem = 1 then endOfRun s.cfg.tEval q else q }

/-- One edge of an EVAL phase (R172). -/
def evalEdge (s : State) : State :=
  let t := lowerSv s
  if 1 < s.seq.ecnt then { t with seq := { t.seq with ecnt := t.seq.ecnt - 1 } }
  else { applyEvaluate t with seq := { t.seq with ecnt := 0, phase := .idle, chain := false } }

/-- The sequencer's part of an edge without a landing transaction (R172): one micro-step while busy, else only SV
falls. -/
def microStep (s : State) : State :=
  match s.seq.phase with
  | .idle => lowerSv s
  | .run => runEdge s
  | .eval => evalEdge s

/-- The rest of an edge at which a transaction was sampled: the sequencer's micro-step when the block was busy before the
edge. The two write different elements (20_memory.md R69 (e)), and the micro-step reads nothing the transaction wrote. -/
def finishEdge (wasBusy : Bool) : Host.Outcome State Fault Refusal → Host.Outcome State Fault Refusal
  | .next t => .next (if wasBusy then microStep t else t)
  | .fault f => .fault f
  | .refused r => .refused r

end Sys2Proof.Machine
end

