-- ==== Sys2Proof/Machine/Commands.lean ====
section
/-! DEFINITION. The commands (43_commands.md R162 to R171): for each what it does when its write lands, and its meaning as
an instruction. -/

namespace Sys2Proof.Machine

/-- NOP landed (R162): no state change. -/
def landNop (s : State) : State := s

/-- A write to CMD with no opcode landed (R163). -/
def landIllegal (s : State) : State := raiseError ⟨.eCmd, 0⟩ s

/-- The engine LOAD sets up from one operand pair: value registers truncated to WMAX bits, the length to 6 (R165). -/
def loadedEngine (wmax : Nat) (seed poly width : Word) : Engine :=
  engineEdge false true false (seed &&& mask wmax) (poly &&& mask wmax) (width.setWidth 6) Engine.zero

/-- The effect of a LOAD that passed its checks (R165). -/
def loadEffect (s : State) : State :=
  clearError (clearResults
    { s with
      lfsr1 := loadedEngine s.cfg.wmax s.ops.s1 s.ops.p1 s.ops.s1len
      lfsr2 := loadedEngine s.cfg.wmax s.ops.s2 s.ops.p2 s.ops.s2len
      steps := 0
      acc := Accumulator.zero
      last := LastOut.zero
      recs := Records.empty
      status := { s.status with loaded := true } })

/-- LOAD landed (R165). -/
def landLoad (s : State) : State :=
  match checkConfig s.cfg s.ops with
  | some e => raiseError e s
  | none => loadEffect s

/-- The checks of START, in order (R166). -/
def checkStart (cfg : Config) (o : OperandRegs) : Option Raised :=
  match checkConfig cfg o with
  | some e => some e
  | none =>
    if o.len = 0 then some ⟨.eLen, 0⟩
    else if cfg.lmax < o.len.toNat then some ⟨.eLen, 0⟩
    else none

/-- START landed (R166). -/
def landStart (s : State) : State :=
  match checkStart s.cfg s.ops with
  | some e => raiseError e s
  | none =>
    let t := loadEffect s
    { t with seq := { t.seq with phase := .run, rem := s.ops.len, chain := true } }

/-- STEP landed (R168). -/
def landStep (s : State) : State :=
  if s.status.loaded = false then raiseError ⟨.eState, 0⟩ s
  else if s.cfg.lmax < s.steps.toNat + 1 then raiseError ⟨.eLen, 0⟩ s
  else clearError (clearResults (genStep s))

/-- RUN landed (R169). -/
def landRun (s : State) : State :=
  if s.status.loaded = false then raiseError ⟨.eState, 0⟩ s
  else if s.cfg.lmax < s.steps.toNat + s.ops.len.toNat then raiseError ⟨.eLen, 0⟩ s
  else
    let t := clearError (clearResults s)
    if s.ops.len = 0 then t
    else { t with seq := { t.seq with phase := .run, rem := s.ops.len, chain := false } }

/-- EVAL landed (R170). -/
def landEval (s : State) : State :=
  clearError { s with seq := { s.seq with phase := .eval, ecnt := s.cfg.tEval, chain := false } }

/-- CLEAR landed (R171): every group but the operands at its reset value. -/
def landClear (s : State) : State := { resetBlock s with ops := s.ops }

/-- The command a landed write to CMD executes (R161, R83). -/
def landCommand : Instr → State → State
  | .nop => landNop
  | .start => landStart
  | .load => landLoad
  | .step => landStep
  | .run => landRun
  | .eval => landEval
  | .clear => landClear
  | .cmdIllegal _ => landIllegal
  | .wr _ _ => id
  | .rd _ => id

/-- NOP (R162). -/
def execNop (s : State) : Host.Outcome State Fault Refusal := hostWrite landNop s

/-- START (R166). -/
def execStart (s : State) : Host.Outcome State Fault Refusal := hostWrite landStart s

/-- LOAD (R165). -/
def execLoad (s : State) : Host.Outcome State Fault Refusal := hostWrite landLoad s

/-- STEP (R168). -/
def execStep (s : State) : Host.Outcome State Fault Refusal := hostWrite landStep s

/-- RUN (R169). -/
def execRun (s : State) : Host.Outcome State Fault Refusal := hostWrite landRun s

/-- EVAL (R170). -/
def execEval (s : State) : Host.Outcome State Fault Refusal := hostWrite landEval s

/-- CLEAR (R171). -/
def execClear (s : State) : Host.Outcome State Fault Refusal := hostWrite landClear s

/-- CMD.ILLEGAL (R163): the bad opcode is not kept (60_exceptions.md R190). -/
def execCmdIllegal (_v : Word) (s : State) : Host.Outcome State Fault Refusal := hostWrite landIllegal s

end Sys2Proof.Machine
end

