-- ==== Sys2Proof/Machine/Transactions.lean ====
section
/-! DEFINITION. The two host transactions RD and WR (43_commands.md R160, R161). -/

namespace Sys2Proof.Machine

/-- What a landed write does (R161): a write to CMD executes the command its data selects, any other goes to the
register map. -/
def landWrite (addr : RegNo) (wdata : Word) (s : State) : State :=
  if addr = cmdNo then landCommand (decodeCommand wdata) s else writeOperand addr wdata s

/-- WR (R161). The decoder gives no WR of register CMD; the rule's clause for it is here all the same. -/
def execWr (addr : RegNo) (wdata : Word) (s : State) : Host.Outcome State Fault Refusal :=
  hostWrite (landWrite addr wdata) s

/-- RD (R160): `h_rdata` is `x[addr]` of the state before the edge, in every state, busy or not; nothing else changes but
that SV falls at an edge of the IDLE phase, as at any edge without a step. -/
def execRd (addr : RegNo) (s : State) : Host.Outcome State Fault Refusal :=
  let t := { s with hRdata := readReg s addr }
  .next (if s.busy then t else lowerSv t)

end Sys2Proof.Machine
end

