-- ==== Sys2Proof/Machine/Step.lean ====
section
/-! DEFINITION. One step is one rising edge of `clk` (00_scope.md R10, 43_commands.md R172). -/

namespace Sys2Proof.Machine

/-- The next-state function of the block at one edge (R172), with the priority of 60_exceptions.md R198: reset; else the
transaction on the pins, if any, and the sequencer's micro-step if the block was busy. -/
def step (s : State) : Host.Outcome State Fault Refusal :=
  if (nextPins s).rst then .next (resetEdge s)
  else
    match transactionOf (nextPins s) with
    | none => .next (microStep (takePins s))
    | some w => finishEdge s.busy (exec (decode w) (takePins s))

/-- `s` with the transaction word whose `nbits` bits are `w` on the pins of the coming edge, which `step` samples next. -/
def State.withFetchWord (s : State) (nbits w : Nat) : State :=
  presentWord (BitVec.ofNat 39 (w % 2 ^ nbits)) s

end Sys2Proof.Machine
end

