-- ==== Sys2Proof/Machine/HostScript.lean ====
section
/-! DEFINITION. The host's side of the port: assembling bit-strings from text (30_encoding.md R85), the script notation
and its pseudo-operations as pin samples (R89, R90), and reading the outputs back (R87). No step uses this file. -/

namespace Sys2Proof.Machine

/-- One character of a bit-string; any other character is a configuration error the host reports (R85). -/
def parseBit (c : Char) : Option Bool :=
  if c = '0' then some false else if c = '1' then some true else none

/-- The elements after the first: each may be preceded by one space (90_conflicts.md C3). -/
def parseMoreBits : List Char → Option (List Bool)
  | [] => some []
  | [c] => (parseBit c).map ([·])
  | c :: d :: cs =>
    if c = ' ' then
      match parseBit d, parseMoreBits cs with
      | some b, some bs => some (b :: bs)
      | _, _ => none
    else
      match parseBit c, parseMoreBits (d :: cs) with
      | some b, some bs => some (b :: bs)
      | _, _ => none

/-- The host's parse of a written bit-string, first character element 0 (R85, R7); `none` is the host's configuration
error. -/
def parseBits : List Char → Option (List Bool)
  | [] => some []
  | c :: cs =>
    match parseBit c, parseMoreBits cs with
    | some b, some bs => some (b :: bs)
    | _, _ => none

/-- `RD <reg>`: one cycle (R89). -/
def scriptRd (addr : RegNo) : List PinSample := [pinsOfWord (packT39 false addr 0)]

/-- `WR <reg>, <value>`: one cycle (R89). -/
def scriptWr (addr : RegNo) (v : Word) : List PinSample := [pinsOfWord (packT39 true addr v)]

/-- `CMD <mnemonic>`: one cycle (R89). -/
def scriptCmd (i : Instr) : List PinSample := [pinsOfWord (encode i)]

/-- `IDLE <n>`: `n` cycles without a transaction (R89). -/
def scriptIdle (n : Nat) : List PinSample := List.replicate n idlePins

/-- A bit-string written to a value register and its length register (R85, R90). DESIGN CHOICE (notes/assumptions/13.md):
R85 does not say what a 32-bit register is given for a bit-string of more than 32 characters; the low 32 bits of the value
and of the length are written. -/
def scriptSet (valueNo lengthNo : RegNo) (bits : List Bool) : List PinSample :=
  scriptWr valueNo (BitVec.ofNat 32 (assembleBits bits)) ++ scriptWr lengthNo (BitVec.ofNat 32 bits.length)

/-- `SETP1` (R90). -/
def scriptSetP1 (bits : List Bool) : List PinSample := scriptSet 0x08 0x09 bits

/-- `SETS1` (R90). -/
def scriptSetS1 (bits : List Bool) : List PinSample := scriptSet 0x0A 0x0B bits

/-- `SETP2` (R90). -/
def scriptSetP2 (bits : List Bool) : List PinSample := scriptSet 0x0C 0x0D bits

/-- `SETS2` (R90). -/
def scriptSetS2 (bits : List Bool) : List PinSample := scriptSet 0x0E 0x0F bits

/-- `SETLEN <n>` (R90). -/
def scriptSetLen (n : Word) : List PinSample := scriptWr 0x05 n

/-- `k` reads of STATUS: what a `WAIT` (R90) amounts to when its `k`-th read is the first to show `BUSY = 0`. -/
def scriptWaitReads (k : Nat) : List PinSample := (List.replicate k (scriptRd 0x04)).flatten

/-- `RUNALL p1, s1, p2, s2, n` without its final `WAIT` (R90). -/
def scriptRunAll (p1 s1 p2 s2 : List Bool) (n : Word) : List PinSample :=
  scriptSetP1 p1 ++ scriptSetS1 s1 ++ scriptSetP2 p2 ++ scriptSetS2 s2 ++ scriptSetLen n ++ scriptCmd .start

/-- `RD64`: the value of a pair of registers (R90, 20_memory.md R63). -/
def join64 (lo hi : Word) : Nat := hi.toNat * 2 ^ 32 + lo.toNat

/-- The document's outputs as the host reads them (R87). The statistic is the exact rational `chiNum / chiDen`; the
critical value (units of 1/1000) and the verdict are absent for an undefined test. -/
structure HostResult where
  period : Nat
  chiNum : Nat
  chiDen : Nat
  degreesOfFreedom : Nat
  criticalMilli : Option Nat
  uniform : Option Bool
  deriving DecidableEq, Repr

/-- Result decoding through the register port (R87): valid only when STATUS shows `BUSY = 0, RESV = 1`. -/
def readResult (s : State) : Option HostResult :=
  let status := readReg s 0x04
  let undef := (readReg s 0x2A).getLsbD 1
  if status.getLsbD 0 = false ∧ status.getLsbD 2 = true then
    some
      { period := join64 (readReg s 0x20) (readReg s 0x21)
        chiNum := join64 (readReg s 0x22) (readReg s 0x23)
        chiDen := (readReg s 0x24).toNat
        degreesOfFreedom := (readReg s 0x27).toNat
        criticalMilli := if undef then none else some (readReg s 0x29).toNat
        uniform := if undef then none else some ((readReg s 0x2A).getLsbD 0) }
  else none

end Sys2Proof.Machine
end

