-- ==== Sys2Proof/Safety.lean ====
section
/-! DEFINITION. What a state the hardware can be in satisfies, and the terms in which claims about runs are stated. -/

namespace Sys2Proof.Machine

/-- R36 (a): no bit of a register or its taps at or above the width, which is at most WMAX (R35). -/
abbrev Engine.Fits (wmax : Nat) (e : Engine) : Prop :=
  e.w.toNat ≤ wmax ∧ e.r.toNat < 2 ^ e.w.toNat ∧ e.t.toNat < 2 ^ e.w.toNat

/-- R36: (a) for both engines, (b) when loaded, (c) when not. -/
abbrev State.WorkingInv (s : State) : Prop :=
  s.lfsr1.Fits s.cfg.wmax ∧ s.lfsr2.Fits s.cfg.wmax ∧
    (s.status.loaded = true → 1 ≤ s.lfsr1.w.toNat ∧ 1 ≤ s.lfsr2.w.toNat) ∧
    (s.status.loaded = false →
      s.lfsr1 = Engine.zero ∧ s.lfsr2 = Engine.zero ∧ s.steps = 0 ∧ s.acc = Accumulator.zero)

/-- R37 and R38: `M = C0 + C1 <= STEPS <= LMAX`. -/
abbrev State.CounterInv (s : State) : Prop :=
  s.acc.m.toNat = s.acc.c0.toNat + s.acc.c1.toNat ∧ s.acc.m.toNat ≤ s.steps.toNat ∧ s.steps.toNat ≤ s.cfg.lmax

/-- R41 to R43: a RUN phase has steps left, within LMAX, and is of a loaded block; REM is 0 outside it; an EVAL phase has
between 1 and T_EVAL edges left; CHAIN only while busy. -/
abbrev State.SequencerInv (s : State) : Prop :=
  (s.seq.phase = .run →
    1 ≤ s.seq.rem.toNat ∧ s.steps.toNat + s.seq.rem.toNat ≤ s.cfg.lmax ∧ s.status.loaded = true) ∧
  (s.seq.phase ≠ .run → s.seq.rem = 0) ∧
  (s.seq.phase = .eval → 1 ≤ s.seq.ecnt ∧ s.seq.ecnt ≤ s.cfg.tEval) ∧
  (s.seq.phase ≠ .eval → s.seq.ecnt = 0) ∧
  (s.seq.phase = .idle → s.seq.chain = false)

/-- R45: without an error, CAUSE and EINFO are 0; with one, CAUSE names it. While busy no error shows (60_exceptions.md
R196). -/
abbrev State.StatusInv (s : State) : Prop :=
  (s.status.err = false → s.status.cause = .none ∧ s.status.einfo = 0) ∧
  (s.status.err = true → s.status.cause ≠ .none) ∧
  (s.busy = true → s.status.err = false)

/-- R44, R49, R52, R53: no results without RESV; with it they are the evaluation of the counters as they stand, so
results always describe the current sequence (70_reset_and_hazards.md R229). -/
abbrev State.ResultInv (s : State) : Prop :=
  (s.res.resv = false → s.res = Results.zero) ∧
  (s.res.resv = true →
    1 ≤ s.lfsr2.w.toNat ∧ 1 ≤ s.acc.m.toNat ∧
    s.res = resultsOf s.cfg s.lfsr1.w.toNat s.lfsr2.w.toNat s.acc.c0.toNat s.acc.c1.toNat) ∧
  (s.seq.phase = .run → s.res.resv = false)

/-- R57, R122, R131: the two streams have one element per step, the Combined Sequence is their combination and the
counters count it; R39: LD, LC are the last elements, and all four are 0 before the first step. -/
abbrev State.RecordInv (s : State) : Prop :=
  s.recs.dseq.length = s.steps.toNat ∧ s.recs.cseq.length = s.steps.toNat ∧
  s.recs.outseq = combine s.recs.dseq s.recs.cseq ∧
  s.acc.c0.toNat = s.recs.outseq.count false ∧ s.acc.c1.toNat = s.recs.outseq.count true ∧
  s.last.ld = s.recs.dseq.getLastD false ∧ s.last.lc = s.recs.cseq.getLastD false ∧
  (s.last.lv = true ↔ s.steps ≠ 0) ∧ (s.last.sv = true → s.last.lv = true)

/-- What holds of the block at every edge after a reset, for an instance with legal parameters. -/
abbrev State.Inv (s : State) : Prop :=
  s.cfg.Legal ∧ s.WorkingInv ∧ s.CounterInv ∧ s.SequencerInv ∧ s.StatusInv ∧ s.ResultInv ∧ s.RecordInv

/-- The host presents no reset and no write at the coming `n` edges: it does nothing, or reads (70_reset_and_hazards.md
R225). -/
abbrev quietInputs (n : Nat) (inputs : List PinSample) : Prop :=
  ∀ p ∈ inputs.take n, p.rst = false ∧ (p.hValid = true → p.hWe = false)

/-- The state after `n` steps of the machine that all answer a next state; `s` itself where one would not. -/
def afterSteps (n : Nat) (s : State) : State :=
  match Host.Core.run Sys2Proof.core n s with
  | .next t => t
  | .fault _ => s
  | .refused _ => s

/-- No reset among the coming `n` edges; the host may read, write or do nothing. -/
abbrev noReset (n : Nat) (inputs : List PinSample) : Prop := ∀ p ∈ inputs.take n, p.rst = false

/-- The nine RW registers of the map (10_state.md R20, R22). -/
def rwNumbers : List RegNo := [0x05, 0x08, 0x09, 0x0A, 0x0B, 0x0C, 0x0D, 0x0E, 0x0F]

/-- The reserved numbers (R54). -/
def reservedNumbers : List RegNo :=
  [0x06, 0x07, 0x1C, 0x1D, 0x1E, 0x1F, 0x2B, 0x2C, 0x2D, 0x2E, 0x2F]

/-- Both lengths of a pair lie in `1..WMAX` (43_commands.md R164, check 1). -/
abbrev LengthsInRange (wmax : Nat) (plen slen : Word) : Prop :=
  (1 ≤ plen.toNat ∧ plen.toNat ≤ wmax) ∧ (1 ≤ slen.toNat ∧ slen.toNat ≤ wmax)

/-- A 1 at or above the declared length (R164, check 3). -/
abbrev StrayBit (v len : Word) : Prop := ∃ i : Nat, len.toNat ≤ i ∧ v.getLsbD i = true

/-- `s` after an edge of the IDLE phase at which a command was rejected: the error reported, SV fallen, nothing else
(60_exceptions.md R195 (a)). -/
abbrev State.rejected (s : State) (cause : Cause) (einfo : BitVec 2) : State :=
  { s with
    status := { s.status with err := true, cause := cause, einfo := einfo }
    last := { s.last with sv := false } }

/-- `s` after a write that was dropped (43_commands.md R161). -/
abbrev State.dropped (s : State) : State := { s with status := { s.status with busywr := true } }

/-- `s` after an edge of the IDLE phase at which nothing but the fall of SV happened (R172). -/
abbrev State.settled (s : State) : State := { s with last := { s.last with sv := false } }

/-- The statistic of 42_chi_squared_test.md R139 as a rational: the sum over the observed symbols of
`(observed - expected)^2 / expected`, with `expected = m / 2`. -/
def chiSquaredStatistic (c0 c1 : Nat) : ℚ :=
  let expected : ℚ := ((c0 : ℚ) + c1) / 2
  (if 0 < c0 then ((c0 : ℚ) - expected) ^ 2 / expected else 0) +
    (if 0 < c1 then ((c1 : ℚ) - expected) ^ 2 / expected else 0)

/-- The block's own state: the state without the host's schedule and the record of read data. -/
def State.block (s : State) : State := { s with inputs := [], hRdata := 0 }

/-- `n` generation steps in one (the atomic view of 43_commands.md R173). -/
def genSteps : Nat → State → State
  | 0, s => s
  | n + 1, s => genSteps n (genStep s)

end Sys2Proof.Machine
end

