-- ==== Sys2Proof/Certificates/Slice0/Obligations.lean ====
section
/-! DEFINITION. The statements for the provers. Each docstring names the rule it formalises. -/

open Sys2Proof Sys2Proof.Machine

/-! ## Encoding -/

/-- 30_encoding.md R80, R83: no operand bit is lost between an instruction and its word. -/
def Obligations.DecodeOfEncodeIsIdentity : Prop :=
  ∀ i : Instr, i.wf = true → decode (encode i) = i

/-- R80, R84: every word decodes to one transaction of the table, and determines it: a write's word is that
transaction's word, a read's word is its word but for the ignored data bits. -/
def Obligations.EveryWordIsOneTransaction : Prop :=
  ∀ w : T39,
    (decode w).wf = true ∧
    packT39 (weField w) (addrField w) (wdataField w) = w ∧
    (weField w = true → encode (decode w) = w) ∧
    (weField w = false → encode (decode w) = packT39 false (addrField w) 0)

/-- R82: the first row of opcode_table.json that a word matches exists and is the row of the decoded instruction. -/
def Obligations.FirstMatchingRowNamesTheInstruction : Prop :=
  ∀ w : T39, ∃ row, firstRow w = some row ∧ row.mnemonic = mnemonicOf (decode w)

/-- Sanity: words written out from R80, R83 and 95_test_vectors.md. -/
def Obligations.WordsFromTheSpecDecode : Prop :=
  decode 0x4300000000 = .nop ∧ decode 0x4300000001 = .start ∧ decode 0x4300000002 = .load ∧
  decode 0x4300000003 = .step ∧ decode 0x4300000004 = .run ∧ decode 0x4300000005 = .eval ∧
  decode 0x4300000006 = .clear ∧ decode 0x4380000001 = .cmdIllegal 0x80000001 ∧
  decode 0x4800000003 = .wr 0x08 3 ∧ decode 0x0400000000 = .rd 0x04 ∧ decode 0x0412345678 = .rd 0x04

/-- R85: a bit-string of at most 32 bits written to a register reads back element by element. -/
def Obligations.AssembledBitStringReadsBack : Prop :=
  ∀ bs : List Bool, bs.length ≤ 32 →
    assembleBits bs < 2 ^ bs.length ∧ bitsOf bs.length (BitVec.ofNat 32 (assembleBits bs)) = bs

/-! ## The edge -/

/-- R160, R172, 60_exceptions.md R198, over the model's schedule of pins (notes/assumptions/1.md): when the pins at the coming edge carry a transaction and no reset, the step is
`exec` of the decoded, well-formed instruction on the state with those pins taken, followed by the sequencer's
micro-step if the block was busy. -/
def Obligations.StepRunsTheSampledTransaction : Prop :=
  ∀ s : State, (nextPins s).rst = false → (nextPins s).hValid = true →
    (decode (packT39 (nextPins s).hWe (nextPins s).hAddr (nextPins s).hWdata)).wf = true ∧
    ∃ t, exec (decode (packT39 (nextPins s).hWe (nextPins s).hAddr (nextPins s).hWdata)) (takePins s) = .next t ∧
      step s = .next (if s.busy then microStep t else t)

/-- R172, phase IDLE: at an edge without a transaction only SV falls. -/
def Obligations.IdleEdgeOnlyLowersSv : Prop :=
  ∀ s : State, s.busy = false → (nextPins s).rst = false → (nextPins s).hValid = false →
    step s = .next { s with
      last := { s.last with sv := false }
      inputs := s.inputs.tail
      hRdata := 0 }

/-- R172, phase RUN: one generation step, REM counts down, the last step goes to EVAL (START) or IDLE (RUN); a write is
dropped and sets BUSYWR; nothing else changes. -/
def Obligations.RunEdgeIsOneGenerationStep : Prop :=
  ∀ s : State, s.seq.phase = .run → (nextPins s).rst = false →
    step s = .next { genStep s with
      seq :=
        if s.seq.rem = 1 then
          if s.seq.chain then ⟨.eval, 0, s.cfg.tEval, true⟩ else ⟨.idle, 0, s.seq.ecnt, false⟩
        else { s.seq with rem := s.seq.rem - 1 }
      status :=
        { s.status with busywr := s.status.busywr || ((nextPins s).hValid && (nextPins s).hWe) }
      inputs := s.inputs.tail
      hRdata := hRdataPin s (nextPins s) }

/-- R172, phase EVAL, with 42_chi_squared_test.md R150: the countdown, and at its last edge the outcome of `Evaluate` in
the result group and in ERR, CAUSE, EINFO; a failed evaluation clears the result group. -/
def Obligations.EvalEdgeCountsDownThenEvaluates : Prop :=
  ∀ s : State, s.seq.phase = .eval → (nextPins s).rst = false →
    ∃ t, step s = .next t ∧
      t = { s with
        last := { s.last with sv := false }
        seq := t.seq
        status := t.status
        res := t.res
        inputs := s.inputs.tail
        hRdata := hRdataPin s (nextPins s) } ∧
      t.status.loaded = s.status.loaded ∧
      t.status.busywr = (s.status.busywr || ((nextPins s).hValid && (nextPins s).hWe)) ∧
      (1 < s.seq.ecnt →
        t.seq = { s.seq with ecnt := s.seq.ecnt - 1 } ∧ t.res = s.res ∧ t.status.err = s.status.err ∧
          t.status.cause = s.status.cause ∧ t.status.einfo = s.status.einfo) ∧
      (s.seq.ecnt ≤ 1 →
        t.seq = ⟨.idle, s.seq.rem, 0, false⟩ ∧
        match evaluate s.cfg s.lfsr1.w.toNat s.lfsr2.w.toNat s.acc.c0.toNat s.acc.c1.toNat with
        | .ok r => t.res = r ∧ t.status.err = false ∧ t.status.cause = .none ∧ t.status.einfo = 0
        | .error e =>
          t.res = Results.zero ∧ t.status.err = true ∧ t.status.cause = e.cause ∧ t.status.einfo = e.einfo)

/-- 70_reset_and_hazards.md R220: `rst` wins over the phase and the host's transaction; every element takes its reset
value, `h_rdata` shows the value before the reset (the model's record of it, notes/assumptions/4.md), the parameters
stay. -/
def Obligations.ResetWinsOverEverything : Prop :=
  ∀ s : State, (nextPins s).rst = true →
    step s = .next { State.reset with
      cfg := s.cfg
      inputs := s.inputs.tail
      hRdata := if (nextPins s).hValid ∧ (nextPins s).hWe = false then readReg s (nextPins s).hAddr else 0 }

/-- 10_state.md R58: what the host reads after a reset: 0 at every number but the constants ID, CAP, LMAXR and CRITROM,
which read as before. -/
def Obligations.RegistersReadZeroAfterReset : Prop :=
  ∀ s : State, (nextPins s).rst = true →
    ∃ t, step s = .next t ∧ ∀ a : RegNo,
      readReg t a = if a.toNat ≤ 2 ∨ 0x30 ≤ a.toNat then readReg s a else 0

/-- R56, R160: the model's record of `h_rdata` after any step (notes/assumptions/4.md) is the pin's value in the cycle before its edge: the register
read, from the state before the edge, and 0 when no read was presented. -/
def Obligations.ReadDataIsTheRegisterBeforeTheEdge : Prop :=
  ∀ s : State, ∃ t, step s = .next t ∧
    t.hRdata =
      if (nextPins s).hValid ∧ (nextPins s).hWe = false then readReg s (nextPins s).hAddr else 0

/-- 00_scope.md R17: no step and no instruction faults or is refused, in any state. -/
def Obligations.EveryStepAnswersANextState : Prop :=
  (∀ s : State, ∃ t, step s = .next t) ∧ ∀ (i : Instr) (s : State), ∃ t, exec i s = .next t

/-! ## The register port -/

/-- R160: a read answers the register's value (in the model's record of `h_rdata`, notes/assumptions/4.md) in every
state, busy or not, and changes nothing; SV falls as at any edge
of the IDLE phase. -/
def Obligations.ReadAnswersTheRegister : Prop :=
  ∀ (s : State) (a : RegNo), ∃ t, exec (.rd a) s = .next t ∧ t.hRdata = readReg s a ∧
    { t with hRdata := s.hRdata, last := s.last } = s ∧
    t.last = { s.last with sv := s.last.sv && s.busy } ∧ readReg s 0x03 = 0

/-- R161: the encoding; a write is dropped while busy; it executes a command at CMD; it sets exactly the addressed register at an RW
number; it is ignored elsewhere. -/
def Obligations.WriteLandsOrIsDropped : Prop :=
  ∀ (s : State) (a : RegNo) (v : Word),
    encode (.wr a v) = ((1 : T39) <<< 38) ||| (a.setWidth 39 <<< 32) ||| v.setWidth 39 ∧
    (s.busy = true → exec (.wr a v) s = .next s.dropped) ∧
    (s.busy = false →
      if a = 0x03 then exec (.wr a v) s = exec (decodeCommand v) s
      else if a ∈ rwNumbers then
        ∃ t, exec (.wr a v) s = .next t ∧ readReg t a = v ∧
          (∀ b : RegNo, b ≠ a → b ≠ 0x1A → readReg t b = readReg s b) ∧
          { t with ops := s.ops } = s.settled
      else exec (.wr a v) s = .next s.settled)

/-- R161, R198: every command's write, and no read, is dropped while busy, whatever its data. -/
def Obligations.EveryWriteIsDroppedWhileBusy : Prop :=
  ∀ (i : Instr) (s : State), weField (encode i) = true → s.busy = true → exec i s = .next s.dropped

/-- 70_reset_and_hazards.md R225, 20_memory.md R69 (e): a write while busy disturbs nothing: the edge is the edge with
no transaction, but for BUSYWR. -/
def Obligations.DroppedWriteDisturbsNothing : Prop :=
  ∀ s : State, s.busy = true → (nextPins s).rst = false → (nextPins s).hValid = true → (nextPins s).hWe = true →
    ∃ u, step { s with inputs := idlePins :: s.inputs.tail } = .next u ∧ step s = .next u.dropped

/-- 10_state.md R46: BUSYWR after an edge: set by a write that arrives while busy, cleared by reset and by CLEAR only. -/
def Obligations.BusywrIsStickyUntilClear : Prop :=
  ∀ s : State, ∃ t, step s = .next t ∧
    (t.status.busywr = true ↔
      (nextPins s).rst = false ∧
        ((s.busy = true ∧ (nextPins s).hValid = true ∧ (nextPins s).hWe = true) ∨
          (s.status.busywr = true ∧
            ¬(s.busy = false ∧ ∃ w, transactionOf (nextPins s) = some w ∧ decode w = .clear))))

/-- R28, with the cause codes of 60_exceptions.md R190 and the phase codes of R40 spelled out: the fields of STATUS, and
that a landed write to it stores nothing. -/
def Obligations.StatusWordFields : Prop :=
  ∀ s : State,
    (readReg s 0x04).getLsbD 0 = decide (s.seq.phase ≠ .idle) ∧
    (readReg s 0x04).getLsbD 1 = s.status.loaded ∧
    (readReg s 0x04).getLsbD 2 = s.res.resv ∧
    (readReg s 0x04).getLsbD 3 = s.status.err ∧
    ((readReg s 0x04).extractLsb' 4 4).toNat =
      (match s.status.cause with
        | .none => 0
        | .eCmd => 1
        | .eWidth => 2
        | .eMismatch => 3
        | .eStray => 4
        | .eLen => 5
        | .eState => 6
        | .eWidth2 => 7
        | .eDomain => 8) ∧
    (readReg s 0x04).extractLsb' 8 2 = s.status.einfo ∧
    (readReg s 0x04).getLsbD 10 = s.status.busywr ∧
    ((readReg s 0x04).extractLsb' 11 2).toNat = (match s.seq.phase with | .idle => 0 | .run => 1 | .eval => 2) ∧
    (readReg s 0x04).getLsbD 13 = s.seq.chain ∧
    (readReg s 0x04).extractLsb' 14 18 = 0 ∧
    ∀ v : Word, s.busy = false → exec (.wr 0x04 v) s = .next s.settled

/-- R20, rows 0x05, 0x08 to 0x1B and 0x20 to 0x2A of the register map, over all states: the operand registers, the
working registers with the widths zero-extended (R33 to R38), the fields of LASTOUT (R39), REM (R41), the 64-bit results
over two registers (R47, R48, R50), CHI_DEN, DF, KEY, CRIT (R49, R51), and the fields of RESULT (R52). -/
def Obligations.LastOutAndResultFields : Prop :=
  ∀ s : State,
    (readReg s 0x05 = s.ops.len ∧
      readReg s 0x08 = s.ops.p1 ∧ readReg s 0x09 = s.ops.p1len ∧
      readReg s 0x0A = s.ops.s1 ∧ readReg s 0x0B = s.ops.s1len ∧
      readReg s 0x0C = s.ops.p2 ∧ readReg s 0x0D = s.ops.p2len ∧
      readReg s 0x0E = s.ops.s2 ∧ readReg s 0x0F = s.ops.s2len) ∧
    (readReg s 0x10 = s.lfsr1.r ∧ readReg s 0x11 = s.lfsr1.t ∧
      (readReg s 0x12).extractLsb' 0 6 = s.lfsr1.w ∧ (readReg s 0x12).extractLsb' 6 26 = 0 ∧
      readReg s 0x13 = s.lfsr2.r ∧ readReg s 0x14 = s.lfsr2.t ∧
      (readReg s 0x15).extractLsb' 0 6 = s.lfsr2.w ∧ (readReg s 0x15).extractLsb' 6 26 = 0 ∧
      readReg s 0x16 = s.steps ∧ readReg s 0x17 = s.acc.m ∧ readReg s 0x18 = s.acc.c0 ∧
      readReg s 0x19 = s.acc.c1 ∧ readReg s 0x1B = s.seq.rem) ∧
    (readReg s 0x24 = s.res.chiDen ∧ (readReg s 0x27).toNat = s.res.df.toNat ∧
      (readReg s 0x28).toNat = s.res.key.toNat ∧ readReg s 0x29 = s.res.crit) ∧
    ((readReg s 0x1A).getLsbD 0 = s.last.ld ∧ (readReg s 0x1A).getLsbD 1 = s.last.lc ∧
      (readReg s 0x1A).getLsbD 2 = s.last.lv ∧ (readReg s 0x1A).getLsbD 3 = s.last.sv ∧
      (readReg s 0x1A).extractLsb' 4 28 = 0) ∧
    ((readReg s 0x2A).getLsbD 0 = s.res.uniform ∧ (readReg s 0x2A).getLsbD 1 = s.res.undef ∧
      (readReg s 0x2A).extractLsb' 2 30 = 0) ∧
    readReg s 0x21 ++ readReg s 0x20 = s.res.period ∧
    readReg s 0x23 ++ readReg s 0x22 = s.res.chiNum ∧
    readReg s 0x26 ++ readReg s 0x25 = s.res.chiMilli

/-- R24, R25, R26: the constants, for every instance with legal parameters; a landed write to them is ignored. -/
def Obligations.ConstantRegisters : Prop :=
  ∀ s : State, s.cfg.Legal →
    readReg s 0x00 = 0x354C4307 ∧
    ((readReg s 0x01).extractLsb' 0 6).toNat = s.cfg.wmax ∧
    (readReg s 0x01).extractLsb' 6 2 = 0 ∧
    (readReg s 0x01).extractLsb' 8 5 = 16 ∧
    (readReg s 0x01).extractLsb' 13 3 = 0 ∧
    (readReg s 0x01).extractLsb' 16 16 = 1000 ∧
    (s.cfg = defaultConfig → readReg s 0x01 = 0x03E81020 ∧ readReg s 0x02 = 0x7FFFFFFF) ∧
    (readReg s 0x02).toNat = s.cfg.lmax ∧
    ∀ (a : RegNo) (v : Word), a.toNat ≤ 2 → s.busy = false → exec (.wr a v) s = .next s.settled

/-- R54: reserved numbers read 0, and writes to them are ignored without an error. -/
def Obligations.ReservedNumbersAreInert : Prop :=
  ∀ (s : State) (a : RegNo), a ∈ reservedNumbers →
    readReg s a = 0 ∧ ∀ v : Word, s.busy = false → exec (.wr a v) s = .next s.settled

/-- R55: the mirror of CRITROM, and that no step writes the parameters it is one of. -/
def Obligations.CritRomIsMirroredAndConstant : Prop :=
  (∀ (s : State) (k : Fin 16), readReg s (BitVec.ofNat 6 (0x30 + k.val)) = s.cfg.critTable[k.val]) ∧
  ∀ s : State, ∃ t, step s = .next t ∧ t.cfg = s.cfg

/-- R22: the operand registers change only by a landed write to one of them and by reset. -/
def Obligations.OperandsChangeOnlyByLandedWrite : Prop :=
  ∀ s : State, ∃ t, step s = .next t ∧
    (t.ops ≠ s.ops →
      (nextPins s).rst = true ∨
        (s.busy = false ∧ ∃ w a v, transactionOf (nextPins s) = some w ∧ decode w = .wr a v ∧ a ∈ rwNumbers))

/-! ## Commands -/

/-- R162, with SV falling as at any edge of the IDLE phase (R172). -/
def Obligations.NopChangesNothing : Prop :=
  ∀ s : State, encode .nop = 0x4300000000 ∧
    (s.busy = false → exec .nop s = .next s.settled) ∧
    (s.busy = true → exec .nop s = .next s.dropped)

/-- R163. -/
def Obligations.IllegalCommandReportsECmd : Prop :=
  (∀ v : Word, 7 ≤ v.toNat → decode (packT39 true 0x03 v) = .cmdIllegal v) ∧
  (∀ (v : Word) (s : State), s.busy = false → exec (.cmdIllegal v) s = .next (s.rejected .eCmd 0)) ∧
  ∃ t, exec (.cmdIllegal 0x10) State.reset = .next t ∧ readReg t 0x04 = 0x00000018

/-- R164, each check in terms of the lengths and the bits; EINFO names every LFSR that fails the check reported. -/
def Obligations.ConfigurationCheckOrder : Prop :=
  ∀ (cfg : Config) (o : OperandRegs) (e : BitVec 2),
    (checkConfig cfg o = some ⟨.eWidth, e⟩ ↔
      (¬LengthsInRange cfg.wmax o.p1len o.s1len ∨ ¬LengthsInRange cfg.wmax o.p2len o.s2len) ∧
      (e.getLsbD 0 = true ↔ ¬LengthsInRange cfg.wmax o.p1len o.s1len) ∧
      (e.getLsbD 1 = true ↔ ¬LengthsInRange cfg.wmax o.p2len o.s2len)) ∧
    (checkConfig cfg o = some ⟨.eMismatch, e⟩ ↔
      LengthsInRange cfg.wmax o.p1len o.s1len ∧ LengthsInRange cfg.wmax o.p2len o.s2len ∧
      (o.p1len ≠ o.s1len ∨ o.p2len ≠ o.s2len) ∧
      (e.getLsbD 0 = true ↔ o.p1len ≠ o.s1len) ∧ (e.getLsbD 1 = true ↔ o.p2len ≠ o.s2len)) ∧
    (checkConfig cfg o = some ⟨.eStray, e⟩ ↔
      LengthsInRange cfg.wmax o.p1len o.s1len ∧ LengthsInRange cfg.wmax o.p2len o.s2len ∧
      o.p1len = o.s1len ∧ o.p2len = o.s2len ∧
      ((StrayBit o.p1 o.p1len ∨ StrayBit o.s1 o.s1len) ∨ (StrayBit o.p2 o.p2len ∨ StrayBit o.s2 o.s2len)) ∧
      (e.getLsbD 0 = true ↔ StrayBit o.p1 o.p1len ∨ StrayBit o.s1 o.s1len) ∧
      (e.getLsbD 1 = true ↔ StrayBit o.p2 o.p2len ∨ StrayBit o.s2 o.s2len)) ∧
    (checkConfig cfg o = none ↔
      LengthsInRange cfg.wmax o.p1len o.s1len ∧ LengthsInRange cfg.wmax o.p2len o.s2len ∧
      o.p1len = o.s1len ∧ o.p2len = o.s2len ∧
      ¬StrayBit o.p1 o.p1len ∧ ¬StrayBit o.s1 o.s1len ∧ ¬StrayBit o.p2 o.p2len ∧ ¬StrayBit o.s2 o.s2len)

/-- R165: the encoding; the operands are copied exactly, nothing being lost by the truncations, and everything of the old sequence is
gone; a failed check changes only ERR, CAUSE, EINFO. LEN plays no part. -/
def Obligations.LoadCopiesOperandsExactly : Prop :=
  ∀ s : State, s.busy = false → s.cfg.wmax ≤ 32 →
    encode .load = 0x4300000002 ∧
    (∀ e, checkConfig s.cfg s.ops = some e → exec .load s = .next (s.rejected e.cause e.einfo)) ∧
    (checkConfig s.cfg s.ops = none →
      (s.ops.s1len.setWidth 6).toNat = s.ops.s1len.toNat ∧ (s.ops.s2len.setWidth 6).toNat = s.ops.s2len.toNat ∧
      exec .load s = .next { s with
        lfsr1 := ⟨s.ops.s1, s.ops.p1, s.ops.s1len.setWidth 6⟩
        lfsr2 := ⟨s.ops.s2, s.ops.p2, s.ops.s2len.setWidth 6⟩
        steps := 0
        acc := ⟨0, 0, 0⟩
        last := ⟨false, false, false, false⟩
        status := ⟨true, false, .none, 0, s.status.busywr⟩
        res := Results.zero
        recs := ⟨[], [], []⟩ })

/-- R166 at the accepting edge: the checks in order, then the LOAD effect and a RUN phase of LEN steps with CHAIN. -/
def Obligations.StartChecksThenLoadsAndRuns : Prop :=
  ∀ s : State, s.busy = false →
    (∀ e, checkConfig s.cfg s.ops = some e → exec .start s = .next (s.rejected e.cause e.einfo)) ∧
    (checkConfig s.cfg s.ops = none →
      (s.ops.len.toNat = 0 → exec .start s = .next (s.rejected .eLen 0)) ∧
      (s.cfg.lmax < s.ops.len.toNat → exec .start s = .next (s.rejected .eLen 0)) ∧
      (1 ≤ s.ops.len.toNat → s.ops.len.toNat ≤ s.cfg.lmax →
        ∃ u, exec .load s = .next u ∧
          exec .start s = .next { u with seq := ⟨.run, s.ops.len, s.seq.ecnt, true⟩ }))

/-- R167, through the list form of the step (40_lfsr_engine.md R101) and without wrap-around of any counter: both engines
step whether or not the pair survives, the kept bit is counted, and nothing outside the working group and the records
changes. -/
def Obligations.GenerationStepEffect : Prop :=
  ∀ s : State, s.Inv → s.status.loaded = true → s.steps.toNat < s.cfg.lmax →
    ∃ d c r1 r2,
      listStep (bitsOf s.lfsr1.w.toNat s.lfsr1.r) (bitsOf s.lfsr1.w.toNat s.lfsr1.t) = (d, r1) ∧
      listStep (bitsOf s.lfsr2.w.toNat s.lfsr2.r) (bitsOf s.lfsr2.w.toNat s.lfsr2.t) = (c, r2) ∧
      bitsOf s.lfsr1.w.toNat (genStep s).lfsr1.r = r1 ∧ bitsOf s.lfsr2.w.toNat (genStep s).lfsr2.r = r2 ∧
      (genStep s).last = ⟨d, c, true, true⟩ ∧
      (genStep s).steps.toNat = s.steps.toNat + 1 ∧
      (genStep s).acc.m.toNat = s.acc.m.toNat + c.toNat ∧
      (genStep s).acc.c0.toNat = s.acc.c0.toNat + (c && !d).toNat ∧
      (genStep s).acc.c1.toNat = s.acc.c1.toNat + (c && d).toNat ∧
      (genStep s).recs.dseq = s.recs.dseq ++ [d] ∧ (genStep s).recs.cseq = s.recs.cseq ++ [c] ∧
      (genStep s).recs.outseq = s.recs.outseq ++ (if c then [d] else []) ∧
      genStep s = { s with
        lfsr1 := { s.lfsr1 with r := (genStep s).lfsr1.r }
        lfsr2 := { s.lfsr2 with r := (genStep s).lfsr2.r }
        steps := (genStep s).steps
        acc := (genStep s).acc
        last := (genStep s).last
        recs := (genStep s).recs }

/-- R168: the encoding, the two checks in order, and one `GenStep` with `ClearResults`; REM and LEN play no part. -/
def Obligations.StepCommandIsOneGenerationStep : Prop :=
  ∀ s : State, s.busy = false →
    encode .step = 0x4300000003 ∧
    (s.status.loaded = false → exec .step s = .next (s.rejected .eState 0)) ∧
    (s.status.loaded = true → s.cfg.lmax < s.steps.toNat + 1 → exec .step s = .next (s.rejected .eLen 0)) ∧
    (s.status.loaded = true → s.steps.toNat + 1 ≤ s.cfg.lmax →
      exec .step s = .next { genStep s with
        res := Results.zero
        status := { s.status with err := false, cause := .none, einfo := 0 } })

/-- R169 at the accepting edge: `LEN = 0` completes at once without an error. -/
def Obligations.RunChecksThenRunsLenSteps : Prop :=
  ∀ s : State, s.busy = false →
    (s.status.loaded = false → exec .run s = .next (s.rejected .eState 0)) ∧
    (s.status.loaded = true → s.cfg.lmax < s.steps.toNat + s.ops.len.toNat →
      exec .run s = .next (s.rejected .eLen 0)) ∧
    (s.status.loaded = true → s.steps.toNat + s.ops.len.toNat ≤ s.cfg.lmax →
      exec .run s = .next { s with
        seq := if s.ops.len.toNat = 0 then s.seq else ⟨.run, s.ops.len, s.seq.ecnt, false⟩
        last := { s.last with sv := false }
        res := Results.zero
        status := { s.status with err := false, cause := .none, einfo := 0 } })

/-- R170 at the accepting edge: accepted loaded or not, results untouched until completion. -/
def Obligations.EvalIsAcceptedInEveryIdleState : Prop :=
  ∀ s : State, s.busy = false →
    exec .eval s = .next { s with
      seq := ⟨.eval, s.seq.rem, s.cfg.tEval, false⟩
      last := { s.last with sv := false }
      status := { s.status with err := false, cause := .none, einfo := 0 } }

/-- R171: the encoding; dropped while busy; otherwise everything but the operand group takes its reset value; the host reads the operands as before, the constants as
ever and 0 elsewhere. -/
def Obligations.ClearKeepsOnlyOperands : Prop :=
  ∀ s : State, encode .clear = 0x4300000006 ∧
    (s.busy = true → exec .clear s = .next s.dropped) ∧
    (s.busy = false → ∃ t, exec .clear s = .next t ∧
      t = { State.reset with cfg := s.cfg, ops := s.ops, inputs := s.inputs, hRdata := s.hRdata } ∧
      ∀ a : RegNo,
        readReg t a = if a.toNat ≤ 2 ∨ 0x30 ≤ a.toNat ∨ a ∈ rwNumbers then readReg s a else 0)

/-- 60_exceptions.md R195 (a), R190, R197: a command that ends an idle edge with an error newly reported changed nothing
but ERR, CAUSE, EINFO, and its cause is one of those the command can raise. -/
def Obligations.RejectedCommandChangesOnlyTheReport : Prop :=
  ∀ (i : Instr) (s t : State), s.busy = false → s.status.err = false → exec i s = .next t → t.status.err = true →
    t = s.rejected t.status.cause t.status.einfo ∧
      match i with
      | .cmdIllegal _ => t.status.cause = .eCmd
      | .load => t.status.cause = .eWidth ∨ t.status.cause = .eMismatch ∨ t.status.cause = .eStray
      | .start =>
        t.status.cause = .eWidth ∨ t.status.cause = .eMismatch ∨ t.status.cause = .eStray ∨ t.status.cause = .eLen
      | .step => t.status.cause = .eState ∨ t.status.cause = .eLen
      | .run => t.status.cause = .eState ∨ t.status.cause = .eLen
      | .wr a v => a = 0x03 ∧ exec (decodeCommand v) s = .next t
      | .nop => False
      | .eval => False
      | .clear => False
      | .rd _ => False

/-! ## The units -/

/-- 40_lfsr_engine.md R102: the register form of the step, its three formulas, is the list form of R101 at every
width. -/
def Obligations.RegisterStepIsTheListStep : Prop :=
  ∀ (r t : Word) (w : Nat), 1 ≤ w → w ≤ 32 → r.toNat < 2 ^ w → t.toNat < 2 ^ w →
    listStep (bitsOf w r) (bitsOf w t) = (lfsrOut r w, bitsOf w (lfsrNext r t w)) ∧
      lfsrOut r w = r.getLsbD (w - 1) ∧
      listFeedback (bitsOf w r) (bitsOf w t) = parity (r &&& t) ∧
      (lfsrNext r t w).toNat = (2 * r.toNat + (parity (r &&& t)).toNat) % 2 ^ w

/-- R103: exactly `n` bits, the width is kept, and `a` then `b` steps are `a + b` steps. -/
def Obligations.GenerateComposes : Prop :=
  ∀ (r t : List Bool) (a b : Nat),
    (listGenerate r t a).1.length = a ∧
    (listGenerate r t a).2.length = r.length ∧
    listGenerate r t (a + b) =
      ((listGenerate r t a).1 ++ (listGenerate (listGenerate r t a).2 t b).1,
        (listGenerate (listGenerate r t a).2 t b).2)

/-- R110: the register at time `n` is the next `w` outputs in reverse; the first `w` outputs spell the seed backwards;
every later output is a feedback bit, so the stream obeys the recurrence of the taps. -/
def Obligations.RegisterIsTheComingOutputReversed : Prop :=
  ∀ (seed taps : List Bool) (n : Nat), seed ≠ [] → taps.length = seed.length →
    let outs := (listGenerate seed taps (n + seed.length + 1)).1
    (listGenerate seed taps n).2 = ((outs.drop n).take seed.length).reverse ∧
    outs.take seed.length = seed.reverse ∧
    outs[n + seed.length]? = some (listFeedback (listGenerate seed taps n).2 taps) ∧
    outs[n + seed.length]? = some (listFeedback ((outs.drop n).take seed.length).reverse taps)

/-- R111: with the only tap at the last position the register rotates and the stream repeats the reversed seed. -/
def Obligations.LastTapRotatesTheRegister : Prop :=
  ∀ (seed : List Bool) (k : Nat), seed ≠ [] →
    listGenerate seed (List.replicate (seed.length - 1) false ++ [true]) (k * seed.length) =
      ((List.replicate k seed.reverse).flatten, seed)

/-- R108: the all-zero seed gives zeros for ever, the all-zero polynomial drains the register after `w` steps, and the
check accepts both. -/
def Obligations.ZeroSeedAndZeroPolynomial : Prop :=
  (∀ (w n : Nat) (t : List Bool), listGenerate (List.replicate w false) t n =
    (List.replicate n false, List.replicate w false)) ∧
  (∀ (seed : List Bool) (n : Nat), listGenerate seed (List.replicate seed.length false) (seed.length + n) =
    (seed.reverse ++ List.replicate n false, List.replicate seed.length false)) ∧
  ∀ (cfg : Config) (o : OperandRegs),
    LengthsInRange cfg.wmax o.p1len o.s1len → LengthsInRange cfg.wmax o.p2len o.s2len →
    o.p1len = o.s1len → o.p2len = o.s2len →
    (o.s1 = 0 ∨ ¬StrayBit o.s1 o.s1len) → (o.p1 = 0 ∨ ¬StrayBit o.p1 o.p1len) →
    (o.s2 = 0 ∨ ¬StrayBit o.s2 o.s2len) → (o.p2 = 0 ∨ ¬StrayBit o.p2 o.p2len) →
    checkConfig cfg o = none

/-- R107: a one-bit register. -/
def Obligations.OneBitRegisterRuns : Prop :=
  ∀ (b : Bool) (n : Nat),
    listGenerate [b] [true] n = (List.replicate n b, [b]) ∧
    listGenerate [b] [false] (n + 1) = (b :: List.replicate n false, [false])

/-- 41_shrinking_combiner.md R123 and R124: order kept, one bit per 1 in the control stream up to the paired length,
truncation to the shorter stream; in the block, M counts the 1s of CSEQ and is at most STEPS. -/
def Obligations.CombineKeepsOrderAndCountsOnes : Prop :=
  (∀ d c : List Bool,
    List.Sublist (combine d c) d ∧
    (combine d c).length = (c.take d.length).count true ∧
    combine d c = combine (d.take (min d.length c.length)) (c.take (min d.length c.length))) ∧
  ∀ s : State, s.Inv → s.acc.m.toNat = s.recs.cseq.count true ∧ s.acc.m.toNat ≤ s.steps.toNat

/-- 42_chi_squared_test.md R141: the closed form of the statistic of R139 in both cases, with its range; CHI_NUM and
CHI_DEN are its two parts, not reduced. -/
def Obligations.StatisticClosedForm : Prop :=
  ∀ c0 c1 : Nat, 1 ≤ c0 + c1 →
    chiSquaredStatistic c0 c1 = (chiNumOf c0 c1 : ℚ) / (chiDenOf c0 c1 : ℚ) ∧
    (chiNumOf c0 c1 : Int) = ((c0 : Int) - c1) ^ 2 ∧
    chiDenOf c0 c1 = (if 0 < c0 ∧ 0 < c1 then c0 + c1 else 2 * (c0 + c1)) ∧
    (0 < c0 → 0 < c1 →
      0 ≤ chiSquaredStatistic c0 c1 ∧
      chiSquaredStatistic c0 c1 ≤ ((c0 : ℚ) + c1 - 2) ^ 2 / ((c0 : ℚ) + c1) ∧
      chiSquaredStatistic c0 c1 < (c0 : ℚ) + c1) ∧
    (c0 = 0 ∨ c1 = 0 → chiSquaredStatistic c0 c1 = ((c0 : ℚ) + c1) / 2)

/-- R133 with R138, R141 to R144, R146: the checks in order, and the results as exact numbers: no result wraps within the
widths and lengths the block accepts (10_state.md R47 to R51). -/
def Obligations.EvaluationIsExact : Prop :=
  ∀ (cfg : Config) (w1 w2 c0 c1 : Nat),
    (w2 = 0 → evaluate cfg w1 w2 c0 c1 = .error ⟨.eWidth2, 0b10⟩) ∧
    (1 ≤ w2 → c0 = 0 ∧ c1 = 0 → evaluate cfg w1 w2 c0 c1 = .error ⟨.eDomain, 0⟩) ∧
    (w1 ≤ 32 → 1 ≤ w2 → w2 ≤ 32 → 1 ≤ c0 + c1 → c0 + c1 < 2 ^ 31 →
      ∃ r, evaluate cfg w1 w2 c0 c1 = .ok r ∧ r.resv = true ∧
        r.period.toNat = (2 ^ w1 - 1) * 2 ^ (w2 - 1) ∧
        r.chiNum.toNat = ((c0 : Int) - c1).natAbs ^ 2 ∧
        r.chiDen.toNat = (if c0 = 0 ∨ c1 = 0 then 2 * (c0 + c1) else c0 + c1) ∧
        r.chiMilli.toNat = 1000 * r.chiNum.toNat / r.chiDen.toNat ∧
        r.df.toNat = (if c0 = 0 ∨ c1 = 0 then 0 else 1) ∧
        r.key.toNat = min (c0 + c1 - 1) 16 ∧
        (r.undef = true ↔ c0 = 0 ∨ c1 = 0) ∧
        (c0 = 0 ∨ c1 = 0 → r.crit = 0 ∧ r.uniform = false))

/-- R145, R148, 20_memory.md R74: when both symbols were observed the critical value is the table's entry at KEY, which
lies in 1..16, and the verdict is the strict comparison of the rational statistic with it. -/
def Obligations.VerdictIsStatisticBelowCriticalValue : Prop :=
  ∀ (cfg : Config) (w1 w2 c0 c1 : Nat), 1 ≤ w2 → 0 < c0 → 0 < c1 →
    ∃ (r : Results) (k : Fin 16), evaluate cfg w1 w2 c0 c1 = .ok r ∧
      k.val + 1 = min (c0 + c1 - 1) 16 ∧ r.crit = cfg.critTable[k.val] ∧
      (r.uniform = true ↔ chiSquaredStatistic c0 c1 < (r.crit.toNat : ℚ) / 1000)

/-- R149: the verdict can be read off the truncated statistic. -/
def Obligations.VerdictFromTruncatedStatistic : Prop :=
  ∀ (cfg : Config) (w1 w2 c0 c1 : Nat) (r : Results), c0 + c1 < 2 ^ 31 →
    evaluate cfg w1 w2 c0 c1 = .ok r → r.undef = false →
    r.uniform = decide (r.chiMilli.toNat < r.crit.toNat)

/-! ## The machine as a whole -/

/-- 10_state.md R58: the reset state satisfies the block's invariant. -/
def Obligations.ResetStateIsSound : Prop := State.reset.Inv

/-- 10_state.md R36, R37, R38, R41 to R45, R53, R57, 41 R122, 42 R131: every edge, whatever the host presents, keeps the
block's invariant. -/
def Obligations.EveryEdgeKeepsTheBlockSound : Prop :=
  ∀ s t : State, s.Inv → step s = .next t → t.Inv

/-- R56, R57, 70_reset_and_hazards.md R232: the Combined Sequence grows at every edge by exactly the bit the stream port
then shows, unless reset or a command begins a new sequence. -/
def Obligations.StreamPortShowsEachKeptBitOnce : Prop :=
  ∀ s : State, ∃ t, step s = .next t ∧
    (t.recs.outseq = s.recs.outseq ++ (if outValidPin t then [outBitPin t] else []) ∨
      (t.recs.outseq = [] ∧ outValidPin t = false ∧
        ((nextPins s).rst = true ∨
          (s.busy = false ∧ ∃ w, transactionOf (nextPins s) = some w ∧
            (decode w = .load ∨ decode w = .start ∨ decode w = .clear)))))

/-- R176: the only changes of PHASE. -/
def Obligations.PhaseChangesOnlyAsStated : Prop :=
  ∀ s : State, ∃ t, step s = .next t ∧
    (t.seq.phase = s.seq.phase ∨
      (t.seq.phase = .idle ∧ (nextPins s).rst = true) ∨
      (s.seq.phase = .idle ∧ t.seq.phase = .run ∧ 1 ≤ t.seq.rem.toNat ∧
        ∃ w, transactionOf (nextPins s) = some w ∧ (decode w = .start ∨ decode w = .run)) ∨
      (s.seq.phase = .idle ∧ t.seq.phase = .eval ∧ ∃ w, transactionOf (nextPins s) = some w ∧ decode w = .eval) ∨
      (s.seq.phase = .run ∧ s.seq.rem = 1 ∧ t.seq.phase = if s.seq.chain then .eval else .idle) ∨
      (s.seq.phase = .eval ∧ s.seq.ecnt ≤ 1 ∧ t.seq.phase = .idle))

/-- 20_memory.md R65, 70_reset_and_hazards.md R229: the result group changes only at the edge that ends an evaluation, or
to zero at reset and at an accepted LOAD, START, STEP, RUN or CLEAR. -/
def Obligations.ResultsChangeOnlyAsStated : Prop :=
  ∀ s : State, ∃ t, step s = .next t ∧
    (t.res = s.res ∨ (s.seq.phase = .eval ∧ s.seq.ecnt ≤ 1) ∨
      (t.res = Results.zero ∧
        ((nextPins s).rst = true ∨
          (s.busy = false ∧ ∃ w, transactionOf (nextPins s) = some w ∧
            (decode w = .load ∨ decode w = .start ∨ decode w = .step ∨ decode w = .run ∨ decode w = .clear)))))

/-- R176, R235: a busy phase ends after exactly the edges the rules give, whatever the host reads or writes meanwhile,
short of a reset: REM for RUN, and T_EVAL more for START. -/
def Obligations.RunPhaseEndsOnTime : Prop :=
  ∀ s : State, s.seq.phase = .run → 1 ≤ s.seq.rem.toNat → 1 ≤ s.cfg.tEval →
    let n := if s.seq.chain then s.seq.rem.toNat + s.cfg.tEval else s.seq.rem.toNat
    noReset n s.inputs →
      (∀ k, k < n → (afterSteps k s).busy = true) ∧ (afterSteps n s).busy = false

/-- 20_memory.md R66: reads, and cycles without a transaction, are all alike to the block. -/
def Obligations.ReadsDoNotDisturbTheBlock : Prop :=
  ∀ (s : State) (n : Nat) (ins ins' : List PinSample), quietInputs n ins → quietInputs n ins' →
    (afterSteps n { s with inputs := ins }).block = (afterSteps n { s with inputs := ins' }).block

/-- R173 for RUN: one accepting edge and LEN quiet edges are LEN generation steps in one. -/
def Obligations.RunIsAtomicForAQuietHost : Prop :=
  ∀ (s : State) (rest : List PinSample), s.busy = false → s.status.loaded = true → 1 ≤ s.ops.len.toNat →
    s.steps.toNat + s.ops.len.toNat ≤ s.cfg.lmax → s.inputs = pinsOfWord (encode .run) :: rest →
    quietInputs s.ops.len.toNat rest →
    (afterSteps (s.ops.len.toNat + 1) s).block =
      { (genSteps s.ops.len.toNat s).block with
        seq := ⟨.idle, 0, s.seq.ecnt, false⟩
        res := Results.zero
        status := { s.status with err := false, cause := .none, einfo := 0 } }

/-- R173 for EVAL: one accepting edge and T_EVAL quiet edges are one `Evaluate`, for every `T_EVAL >= 1`. -/
def Obligations.EvalIsAtomicForAQuietHost : Prop :=
  ∀ (s : State) (rest : List PinSample), s.busy = false → 1 ≤ s.cfg.tEval →
    s.inputs = pinsOfWord (encode .eval) :: rest → quietInputs s.cfg.tEval rest →
    (afterSteps (s.cfg.tEval + 1) s).block =
      { (applyEvaluate s).block with
        seq := ⟨.idle, s.seq.rem, 0, false⟩
        last := { s.last with sv := false } }

/-- R173 for START: one accepting edge and LEN + T_EVAL quiet edges are the LOAD effect, LEN generation steps and
`Evaluate` in one, for every `T_EVAL >= 1`. -/
def Obligations.StartIsAtomicForAQuietHost : Prop :=
  ∀ (s u : State) (rest : List PinSample), s.busy = false → checkConfig s.cfg s.ops = none →
    1 ≤ s.ops.len.toNat → s.ops.len.toNat ≤ s.cfg.lmax → 1 ≤ s.cfg.tEval → exec .load s = .next u →
    s.inputs = pinsOfWord (encode .start) :: rest → quietInputs (s.ops.len.toNat + s.cfg.tEval) rest →
    (afterSteps (s.ops.len.toNat + s.cfg.tEval + 1) s).block =
      { (applyEvaluate (lowerSv (genSteps s.ops.len.toNat u))).block with seq := ⟨.idle, 0, 0, false⟩ }

/-- R174: what a START leaves, in the working group, the sequencer, the status but BUSYWR, the results and the records, is
a function of the operands and the parameters alone; one that fails its checks reports by them alone and changes
nothing else. -/
def Obligations.StartForgetsEverythingButOperands : Prop :=
  ∀ (s s' : State) (rest rest' : List PinSample), s.busy = false → s'.busy = false →
    s.cfg = s'.cfg → s.ops = s'.ops → 1 ≤ s.cfg.tEval →
    s.inputs = pinsOfWord (encode .start) :: rest → s'.inputs = pinsOfWord (encode .start) :: rest' →
    quietInputs (s.ops.len.toNat + s.cfg.tEval) rest → quietInputs (s.ops.len.toNat + s.cfg.tEval) rest' →
    (checkStart s.cfg s.ops = none →
      (afterSteps (s.ops.len.toNat + s.cfg.tEval + 1) s).block =
        { (afterSteps (s.ops.len.toNat + s.cfg.tEval + 1) s').block with
          status :=
            { (afterSteps (s.ops.len.toNat + s.cfg.tEval + 1) s').status with busywr := s.status.busywr } }) ∧
    (∀ e, checkStart s.cfg s.ops = some e →
      (afterSteps 1 s).block = (s.rejected e.cause e.einfo).block ∧
      (afterSteps 1 s').block = (s'.rejected e.cause e.einfo).block)

/-- R175, first law: `CMD START; WAIT` leaves the state of `CMD LOAD; CMD RUN; WAIT; CMD EVAL; WAIT`, the Combined
Sequence included. -/
def Obligations.StartEqualsLoadRunEval : Prop :=
  ∀ s : State, s.busy = false → checkConfig s.cfg s.ops = none →
    1 ≤ s.ops.len.toNat → s.ops.len.toNat ≤ s.cfg.lmax → 1 ≤ s.cfg.tEval →
    (afterSteps (1 + s.ops.len.toNat + s.cfg.tEval)
      { s with inputs := scriptCmd .start ++ scriptIdle (s.ops.len.toNat + s.cfg.tEval) }).block =
    (afterSteps (1 + 1 + s.ops.len.toNat + 1 + s.cfg.tEval)
      { s with
        inputs := scriptCmd .load ++ scriptCmd .run ++ scriptIdle s.ops.len.toNat ++ scriptCmd .eval ++
          scriptIdle s.cfg.tEval }).block

/-- R175, second law: `k` STEP commands leave the state of a RUN of `k` steps, for `k >= 1`. (With `k = 0` no step is
made on either side, but RUN is still a command and clears the results and the error.) -/
def Obligations.StepsEqualOneRun : Prop :=
  ∀ s : State, s.Inv → s.busy = false → s.status.loaded = true → 1 ≤ s.ops.len.toNat →
    s.steps.toNat + s.ops.len.toNat ≤ s.cfg.lmax →
    (afterSteps s.ops.len.toNat
      { s with inputs := (List.replicate s.ops.len.toNat (scriptCmd .step)).flatten }).block =
    (afterSteps (1 + s.ops.len.toNat)
      { s with inputs := scriptCmd .run ++ scriptIdle s.ops.len.toNat }).block

/-- 30_encoding.md R87: what the host reads from the result registers of a sound idle block with valid results are the
document's outputs, exactly. -/
def Obligations.HostReadsTheExactResults : Prop :=
  ∀ s : State, s.Inv → s.busy = false → s.res.resv = true →
    readResult s = some
      { period := (2 ^ s.lfsr1.w.toNat - 1) * 2 ^ (s.lfsr2.w.toNat - 1)
        chiNum := chiNumOf s.acc.c0.toNat s.acc.c1.toNat
        chiDen := chiDenOf s.acc.c0.toNat s.acc.c1.toNat
        degreesOfFreedom := symbolsObserved s.acc.c0.toNat s.acc.c1.toNat - 1
        criticalMilli :=
          if symbolsObserved s.acc.c0.toNat s.acc.c1.toNat = 1 then none
          else some (critRom s.cfg (min (s.acc.m.toNat - 1) 16)).toNat
        uniform :=
          if symbolsObserved s.acc.c0.toNat s.acc.c1.toNat = 1 then none
          else some (verdict s.cfg s.acc.c0.toNat s.acc.c1.toNat) }
end

