-- ==== Sys2Proof/Laws/Decode.lean ====
section
/-! SUPPORT. The fields of a packed transaction word, and what the decoder reads from one. -/

namespace Sys2Proof

theorem getLsbD_packT39 (we : Bool) (a : RegNo) (d : Word) (i : Nat) :
    (packT39 we a d).getLsbD i =
      if i < 32 then d.getLsbD i else if i < 38 then a.getLsbD (i - 32) else decide (i = 38) && we := by
  have h : (packT39 we a d).getLsbD i = (BitVec.ofBool we ++ a ++ d : BitVec (1 + 6 + 32)).getLsbD i := rfl
  rw [h, BitVec.getLsbD_append, BitVec.getLsbD_append]
  split
  · rfl
  · by_cases h2 : i < 38
    · have : i - 32 < 6 := by omega
      simp [h2, this]
    · have : ¬ i - 32 < 6 := by omega
      simp only [this, h2, if_false, BitVec.getLsbD_ofBool]
      congr 1
      simp; omega

theorem weField_packT39 (we : Bool) (a : RegNo) (d : Word) : weField (packT39 we a d) = we := by
  rw [weField, getLsbD_packT39]; simp
theorem addrField_packT39 (we : Bool) (a : RegNo) (d : Word) : addrField (packT39 we a d) = a := by
  apply BitVec.eq_of_getLsbD_eq
  intro i hi
  have h1 : ¬ 32 + i < 32 := by omega
  have h2 : 32 + i < 38 := by omega
  rw [addrField, BitVec.getLsbD_extractLsb', getLsbD_packT39]
  simp [hi, h2]
theorem wdataField_packT39 (we : Bool) (a : RegNo) (d : Word) : wdataField (packT39 we a d) = d := by
  apply BitVec.eq_of_getLsbD_eq
  intro i hi
  rw [wdataField, BitVec.getLsbD_extractLsb', getLsbD_packT39]
  simp [hi]

theorem packT39_and (we we' : Bool) (a a' : RegNo) (d d' : Word) :
    packT39 we a d &&& packT39 we' a' d' = packT39 (we && we') (a &&& a') (d &&& d') := by
  apply BitVec.eq_of_getLsbD_eq
  intro i hi
  rw [BitVec.getLsbD_and]
  simp only [getLsbD_packT39, BitVec.getLsbD_and]
  repeat' split
  all_goals try rfl
  cases decide (i = 38) <;> simp

theorem packT39_fields (w : T39) : packT39 (weField w) (addrField w) (wdataField w) = w := by
  apply BitVec.eq_of_getLsbD_eq
  intro i hi
  rw [getLsbD_packT39, weField, addrField, wdataField, BitVec.getLsbD_extractLsb', BitVec.getLsbD_extractLsb']
  by_cases h1 : i < 32
  · simp [h1]
  · by_cases h2 : i < 38
    · have h3 : i - 32 < 6 := by omega
      have h4 : 32 + (i - 32) = i := by omega
      simp [h1, h2, h3, h4]
    · have h3 : i = 38 := by omega
      subst h3; simp

theorem decodeCommand_wf (v : Word) : (decodeCommand v).wf = true := by
  unfold decodeCommand
  repeat' split
  all_goals try rfl
  simp only [Instr.wf, decide_eq_true_eq]
  have : v.toNat ≠ 0 ∧ v.toNat ≠ 1 ∧ v.toNat ≠ 2 ∧ v.toNat ≠ 3 ∧ v.toNat ≠ 4 ∧ v.toNat ≠ 5 ∧ v.toNat ≠ 6 := by
    simp_all [BitVec.toNat_eq]
  omega

theorem encode_decodeCommand (v : Word) : encode (decodeCommand v) = packT39 true cmdNo v := by
  unfold decodeCommand
  repeat' split
  all_goals simp_all [encode]

theorem decode_packT39 (we : Bool) (a : RegNo) (d : Word) : decode (packT39 we a d) =
    if we then if a = cmdNo then decodeCommand d else .wr a d else .rd a := by
  simp [decode, weField_packT39, addrField_packT39, wdataField_packT39]

theorem decodeCommand_of_ge (v : Word) (h : 7 ≤ v.toNat) : decodeCommand v = .cmdIllegal v := by
  unfold decodeCommand
  have : ∀ k < 7, v ≠ BitVec.ofNat 32 k := by
    intro k hk e; subst e; simp at h; omega
  simp [this 0, this 1, this 2, this 3, this 4, this 5, this 6]


theorem decode_of_write (a : RegNo) (d : Word) (h : a ≠ cmdNo) : decode (packT39 true a d) = .wr a d := by
  simp [decode_packT39, h]

theorem decode_of_command (d : Word) : decode (packT39 true cmdNo d) = decodeCommand d := by
  simp [decode_packT39]

theorem decode_of_read (a : RegNo) (d : Word) : decode (packT39 false a d) = .rd a := by
  simp [decode_packT39]

/-- Whatever a write's word decodes to is a write: its own word has the `we` bit. -/
theorem encode_of_decoded_write (a : RegNo) (d : Word) : weField (encode (decode (packT39 true a d))) = true := by
  rw [decode_packT39]
  by_cases h : a = cmdNo
  · simp [h, encode_decodeCommand, weField_packT39]
  · simp [h, encode, weField_packT39]

end Sys2Proof

namespace Sys2Proof.Machine

theorem length_bitsOf (w : Nat) (v : Word) : (bitsOf w v).length = w := by simp [bitsOf]

theorem assemble_lt (bs : List Bool) : assembleBits bs < 2 ^ bs.length := by
  induction bs with
  | nil => simp [assembleBits]
  | cons b bs ih => simp only [assembleBits, List.length_cons, pow_succ]; cases b <;> simp <;> omega
theorem testBit_assemble (bs : List Bool) (i : Nat) : (assembleBits bs).testBit i = bs.getD i false := by
  induction bs generalizing i with
  | nil => simp [assembleBits]
  | cons b bs ih =>
    cases i with
    | zero => cases b <;> simp [assembleBits, Nat.testBit_zero] 
    | succ i =>
      rw [Nat.testBit_succ]
      have : assembleBits (b :: bs) / 2 = assembleBits bs := by simp only [assembleBits]; cases b <;> simp; omega
      rw [this, ih]; simp


end Sys2Proof.Machine
end

