-- ==== Sys2Proof/Laws/State.lean ====
section
/-! SUPPORT. The fields of the state after each named update: one lemma per field, true by computation. -/

namespace Sys2Proof.Machine

/-! `lowerSv` (R39). -/

@[simp] theorem lowerSv_cfg (s : State) : (lowerSv s).cfg = s.cfg := rfl
@[simp] theorem lowerSv_ops (s : State) : (lowerSv s).ops = s.ops := rfl
@[simp] theorem lowerSv_lfsr1 (s : State) : (lowerSv s).lfsr1 = s.lfsr1 := rfl
@[simp] theorem lowerSv_lfsr2 (s : State) : (lowerSv s).lfsr2 = s.lfsr2 := rfl
@[simp] theorem lowerSv_steps (s : State) : (lowerSv s).steps = s.steps := rfl
@[simp] theorem lowerSv_acc (s : State) : (lowerSv s).acc = s.acc := rfl
@[simp] theorem lowerSv_last (s : State) : (lowerSv s).last = { s.last with sv := false } := rfl
@[simp] theorem lowerSv_seq (s : State) : (lowerSv s).seq = s.seq := rfl
@[simp] theorem lowerSv_status (s : State) : (lowerSv s).status = s.status := rfl
@[simp] theorem lowerSv_res (s : State) : (lowerSv s).res = s.res := rfl
@[simp] theorem lowerSv_recs (s : State) : (lowerSv s).recs = s.recs := rfl
@[simp] theorem lowerSv_inputs (s : State) : (lowerSv s).inputs = s.inputs := rfl
@[simp] theorem lowerSv_hRdata (s : State) : (lowerSv s).hRdata = s.hRdata := rfl

/-! `raiseError` (R195). -/

@[simp] theorem raiseError_cfg (e : Raised) (s : State) : (raiseError e s).cfg = s.cfg := rfl
@[simp] theorem raiseError_ops (e : Raised) (s : State) : (raiseError e s).ops = s.ops := rfl
@[simp] theorem raiseError_lfsr1 (e : Raised) (s : State) : (raiseError e s).lfsr1 = s.lfsr1 := rfl
@[simp] theorem raiseError_lfsr2 (e : Raised) (s : State) : (raiseError e s).lfsr2 = s.lfsr2 := rfl
@[simp] theorem raiseError_steps (e : Raised) (s : State) : (raiseError e s).steps = s.steps := rfl
@[simp] theorem raiseError_acc (e : Raised) (s : State) : (raiseError e s).acc = s.acc := rfl
@[simp] theorem raiseError_last (e : Raised) (s : State) : (raiseError e s).last = s.last := rfl
@[simp] theorem raiseError_seq (e : Raised) (s : State) : (raiseError e s).seq = s.seq := rfl
@[simp] theorem raiseError_status (e : Raised) (s : State) : (raiseError e s).status = raiseErrorFlags e.cause e.einfo s.status := rfl
@[simp] theorem raiseError_res (e : Raised) (s : State) : (raiseError e s).res = s.res := rfl
@[simp] theorem raiseError_recs (e : Raised) (s : State) : (raiseError e s).recs = s.recs := rfl
@[simp] theorem raiseError_inputs (e : Raised) (s : State) : (raiseError e s).inputs = s.inputs := rfl
@[simp] theorem raiseError_hRdata (e : Raised) (s : State) : (raiseError e s).hRdata = s.hRdata := rfl

/-! `clearError` (R45). -/

@[simp] theorem clearError_cfg (s : State) : (clearError s).cfg = s.cfg := rfl
@[simp] theorem clearError_ops (s : State) : (clearError s).ops = s.ops := rfl
@[simp] theorem clearError_lfsr1 (s : State) : (clearError s).lfsr1 = s.lfsr1 := rfl
@[simp] theorem clearError_lfsr2 (s : State) : (clearError s).lfsr2 = s.lfsr2 := rfl
@[simp] theorem clearError_steps (s : State) : (clearError s).steps = s.steps := rfl
@[simp] theorem clearError_acc (s : State) : (clearError s).acc = s.acc := rfl
@[simp] theorem clearError_last (s : State) : (clearError s).last = s.last := rfl
@[simp] theorem clearError_seq (s : State) : (clearError s).seq = s.seq := rfl
@[simp] theorem clearError_status (s : State) : (clearError s).status = clearErrorFlags s.status := rfl
@[simp] theorem clearError_res (s : State) : (clearError s).res = s.res := rfl
@[simp] theorem clearError_recs (s : State) : (clearError s).recs = s.recs := rfl
@[simp] theorem clearError_inputs (s : State) : (clearError s).inputs = s.inputs := rfl
@[simp] theorem clearError_hRdata (s : State) : (clearError s).hRdata = s.hRdata := rfl

/-! `clearResults` (R53). -/

@[simp] theorem clearResults_cfg (s : State) : (clearResults s).cfg = s.cfg := rfl
@[simp] theorem clearResults_ops (s : State) : (clearResults s).ops = s.ops := rfl
@[simp] theorem clearResults_lfsr1 (s : State) : (clearResults s).lfsr1 = s.lfsr1 := rfl
@[simp] theorem clearResults_lfsr2 (s : State) : (clearResults s).lfsr2 = s.lfsr2 := rfl
@[simp] theorem clearResults_steps (s : State) : (clearResults s).steps = s.steps := rfl
@[simp] theorem clearResults_acc (s : State) : (clearResults s).acc = s.acc := rfl
@[simp] theorem clearResults_last (s : State) : (clearResults s).last = s.last := rfl
@[simp] theorem clearResults_seq (s : State) : (clearResults s).seq = s.seq := rfl
@[simp] theorem clearResults_status (s : State) : (clearResults s).status = s.status := rfl
@[simp] theorem clearResults_res (s : State) : (clearResults s).res = Results.zero := rfl
@[simp] theorem clearResults_recs (s : State) : (clearResults s).recs = s.recs := rfl
@[simp] theorem clearResults_inputs (s : State) : (clearResults s).inputs = s.inputs := rfl
@[simp] theorem clearResults_hRdata (s : State) : (clearResults s).hRdata = s.hRdata := rfl

/-! `dropWrite` (R161). -/

@[simp] theorem dropWrite_cfg (s : State) : (dropWrite s).cfg = s.cfg := rfl
@[simp] theorem dropWrite_ops (s : State) : (dropWrite s).ops = s.ops := rfl
@[simp] theorem dropWrite_lfsr1 (s : State) : (dropWrite s).lfsr1 = s.lfsr1 := rfl
@[simp] theorem dropWrite_lfsr2 (s : State) : (dropWrite s).lfsr2 = s.lfsr2 := rfl
@[simp] theorem dropWrite_steps (s : State) : (dropWrite s).steps = s.steps := rfl
@[simp] theorem dropWrite_acc (s : State) : (dropWrite s).acc = s.acc := rfl
@[simp] theorem dropWrite_last (s : State) : (dropWrite s).last = s.last := rfl
@[simp] theorem dropWrite_seq (s : State) : (dropWrite s).seq = s.seq := rfl
@[simp] theorem dropWrite_status (s : State) : (dropWrite s).status = { s.status with busywr := true } := rfl
@[simp] theorem dropWrite_res (s : State) : (dropWrite s).res = s.res := rfl
@[simp] theorem dropWrite_recs (s : State) : (dropWrite s).recs = s.recs := rfl
@[simp] theorem dropWrite_inputs (s : State) : (dropWrite s).inputs = s.inputs := rfl
@[simp] theorem dropWrite_hRdata (s : State) : (dropWrite s).hRdata = s.hRdata := rfl

/-! `takePins` (R56). -/

@[simp] theorem takePins_cfg (s : State) : (takePins s).cfg = s.cfg := rfl
@[simp] theorem takePins_ops (s : State) : (takePins s).ops = s.ops := rfl
@[simp] theorem takePins_lfsr1 (s : State) : (takePins s).lfsr1 = s.lfsr1 := rfl
@[simp] theorem takePins_lfsr2 (s : State) : (takePins s).lfsr2 = s.lfsr2 := rfl
@[simp] theorem takePins_steps (s : State) : (takePins s).steps = s.steps := rfl
@[simp] theorem takePins_acc (s : State) : (takePins s).acc = s.acc := rfl
@[simp] theorem takePins_last (s : State) : (takePins s).last = s.last := rfl
@[simp] theorem takePins_seq (s : State) : (takePins s).seq = s.seq := rfl
@[simp] theorem takePins_status (s : State) : (takePins s).status = s.status := rfl
@[simp] theorem takePins_res (s : State) : (takePins s).res = s.res := rfl
@[simp] theorem takePins_recs (s : State) : (takePins s).recs = s.recs := rfl
@[simp] theorem takePins_inputs (s : State) : (takePins s).inputs = s.inputs.tail := rfl
@[simp] theorem takePins_hRdata (s : State) : (takePins s).hRdata = 0 := rfl

/-! `presentWord` (R80). -/

@[simp] theorem presentWord_cfg (w : T39) (s : State) : (presentWord w s).cfg = s.cfg := rfl
@[simp] theorem presentWord_ops (w : T39) (s : State) : (presentWord w s).ops = s.ops := rfl
@[simp] theorem presentWord_lfsr1 (w : T39) (s : State) : (presentWord w s).lfsr1 = s.lfsr1 := rfl
@[simp] theorem presentWord_lfsr2 (w : T39) (s : State) : (presentWord w s).lfsr2 = s.lfsr2 := rfl
@[simp] theorem presentWord_steps (w : T39) (s : State) : (presentWord w s).steps = s.steps := rfl
@[simp] theorem presentWord_acc (w : T39) (s : State) : (presentWord w s).acc = s.acc := rfl
@[simp] theorem presentWord_last (w : T39) (s : State) : (presentWord w s).last = s.last := rfl
@[simp] theorem presentWord_seq (w : T39) (s : State) : (presentWord w s).seq = s.seq := rfl
@[simp] theorem presentWord_status (w : T39) (s : State) : (presentWord w s).status = s.status := rfl
@[simp] theorem presentWord_res (w : T39) (s : State) : (presentWord w s).res = s.res := rfl
@[simp] theorem presentWord_recs (w : T39) (s : State) : (presentWord w s).recs = s.recs := rfl
@[simp] theorem presentWord_inputs (w : T39) (s : State) : (presentWord w s).inputs = pinsOfWord w :: s.inputs.tail := rfl
@[simp] theorem presentWord_hRdata (w : T39) (s : State) : (presentWord w s).hRdata = s.hRdata := rfl

/-! `writeOperand` (R161). -/

@[simp] theorem writeOperand_cfg (a : RegNo) (v : Word) (s : State) : (writeOperand a v s).cfg = s.cfg := rfl
@[simp] theorem writeOperand_ops (a : RegNo) (v : Word) (s : State) : (writeOperand a v s).ops = writeName v s.ops (regName a) := rfl
@[simp] theorem writeOperand_lfsr1 (a : RegNo) (v : Word) (s : State) : (writeOperand a v s).lfsr1 = s.lfsr1 := rfl
@[simp] theorem writeOperand_lfsr2 (a : RegNo) (v : Word) (s : State) : (writeOperand a v s).lfsr2 = s.lfsr2 := rfl
@[simp] theorem writeOperand_steps (a : RegNo) (v : Word) (s : State) : (writeOperand a v s).steps = s.steps := rfl
@[simp] theorem writeOperand_acc (a : RegNo) (v : Word) (s : State) : (writeOperand a v s).acc = s.acc := rfl
@[simp] theorem writeOperand_last (a : RegNo) (v : Word) (s : State) : (writeOperand a v s).last = s.last := rfl
@[simp] theorem writeOperand_seq (a : RegNo) (v : Word) (s : State) : (writeOperand a v s).seq = s.seq := rfl
@[simp] theorem writeOperand_status (a : RegNo) (v : Word) (s : State) : (writeOperand a v s).status = s.status := rfl
@[simp] theorem writeOperand_res (a : RegNo) (v : Word) (s : State) : (writeOperand a v s).res = s.res := rfl
@[simp] theorem writeOperand_recs (a : RegNo) (v : Word) (s : State) : (writeOperand a v s).recs = s.recs := rfl
@[simp] theorem writeOperand_inputs (a : RegNo) (v : Word) (s : State) : (writeOperand a v s).inputs = s.inputs := rfl
@[simp] theorem writeOperand_hRdata (a : RegNo) (v : Word) (s : State) : (writeOperand a v s).hRdata = s.hRdata := rfl

/-! `resetBlock` (R220). -/

@[simp] theorem resetBlock_cfg (s : State) : (resetBlock s).cfg = s.cfg := rfl
@[simp] theorem resetBlock_ops (s : State) : (resetBlock s).ops = OperandRegs.zero := rfl
@[simp] theorem resetBlock_lfsr1 (s : State) : (resetBlock s).lfsr1 = Engine.zero := rfl
@[simp] theorem resetBlock_lfsr2 (s : State) : (resetBlock s).lfsr2 = Engine.zero := rfl
@[simp] theorem resetBlock_steps (s : State) : (resetBlock s).steps = 0 := rfl
@[simp] theorem resetBlock_acc (s : State) : (resetBlock s).acc = Accumulator.zero := rfl
@[simp] theorem resetBlock_last (s : State) : (resetBlock s).last = LastOut.zero := rfl
@[simp] theorem resetBlock_seq (s : State) : (resetBlock s).seq = Sequencer.zero := rfl
@[simp] theorem resetBlock_status (s : State) : (resetBlock s).status = Status.zero := rfl
@[simp] theorem resetBlock_res (s : State) : (resetBlock s).res = Results.zero := rfl
@[simp] theorem resetBlock_recs (s : State) : (resetBlock s).recs = Records.empty := rfl
@[simp] theorem resetBlock_inputs (s : State) : (resetBlock s).inputs = s.inputs := rfl
@[simp] theorem resetBlock_hRdata (s : State) : (resetBlock s).hRdata = s.hRdata := rfl

/-! `resetEdge` (R220). -/

@[simp] theorem resetEdge_cfg (s : State) : (resetEdge s).cfg = s.cfg := rfl
@[simp] theorem resetEdge_ops (s : State) : (resetEdge s).ops = OperandRegs.zero := rfl
@[simp] theorem resetEdge_lfsr1 (s : State) : (resetEdge s).lfsr1 = Engine.zero := rfl
@[simp] theorem resetEdge_lfsr2 (s : State) : (resetEdge s).lfsr2 = Engine.zero := rfl
@[simp] theorem resetEdge_steps (s : State) : (resetEdge s).steps = 0 := rfl
@[simp] theorem resetEdge_acc (s : State) : (resetEdge s).acc = Accumulator.zero := rfl
@[simp] theorem resetEdge_last (s : State) : (resetEdge s).last = LastOut.zero := rfl
@[simp] theorem resetEdge_seq (s : State) : (resetEdge s).seq = Sequencer.zero := rfl
@[simp] theorem resetEdge_status (s : State) : (resetEdge s).status = Status.zero := rfl
@[simp] theorem resetEdge_res (s : State) : (resetEdge s).res = Results.zero := rfl
@[simp] theorem resetEdge_recs (s : State) : (resetEdge s).recs = Records.empty := rfl
@[simp] theorem resetEdge_inputs (s : State) : (resetEdge s).inputs = s.inputs.tail := rfl
@[simp] theorem resetEdge_hRdata (s : State) : (resetEdge s).hRdata = hRdataPin s (nextPins s) := rfl

/-! `landClear` (R171). -/

@[simp] theorem landClear_cfg (s : State) : (landClear s).cfg = s.cfg := rfl
@[simp] theorem landClear_ops (s : State) : (landClear s).ops = s.ops := rfl
@[simp] theorem landClear_lfsr1 (s : State) : (landClear s).lfsr1 = Engine.zero := rfl
@[simp] theorem landClear_lfsr2 (s : State) : (landClear s).lfsr2 = Engine.zero := rfl
@[simp] theorem landClear_steps (s : State) : (landClear s).steps = 0 := rfl
@[simp] theorem landClear_acc (s : State) : (landClear s).acc = Accumulator.zero := rfl
@[simp] theorem landClear_last (s : State) : (landClear s).last = LastOut.zero := rfl
@[simp] theorem landClear_seq (s : State) : (landClear s).seq = Sequencer.zero := rfl
@[simp] theorem landClear_status (s : State) : (landClear s).status = Status.zero := rfl
@[simp] theorem landClear_res (s : State) : (landClear s).res = Results.zero := rfl
@[simp] theorem landClear_recs (s : State) : (landClear s).recs = Records.empty := rfl
@[simp] theorem landClear_inputs (s : State) : (landClear s).inputs = s.inputs := rfl
@[simp] theorem landClear_hRdata (s : State) : (landClear s).hRdata = s.hRdata := rfl

/-! `genStep` (R167). -/

@[simp] theorem genStep_cfg (s : State) : (genStep s).cfg = s.cfg := rfl
@[simp] theorem genStep_ops (s : State) : (genStep s).ops = s.ops := rfl
@[simp] theorem genStep_lfsr1 (s : State) : (genStep s).lfsr1 = engineStep s.lfsr1 := rfl
@[simp] theorem genStep_lfsr2 (s : State) : (genStep s).lfsr2 = engineStep s.lfsr2 := rfl
@[simp] theorem genStep_steps (s : State) : (genStep s).steps = s.steps + 1 := rfl
@[simp] theorem genStep_acc (s : State) : (genStep s).acc = accumulate (engineOut s.lfsr2) (engineOut s.lfsr1 && engineOut s.lfsr2) s.acc := rfl
@[simp] theorem genStep_last (s : State) : (genStep s).last = ⟨engineOut s.lfsr1, engineOut s.lfsr2, true, true⟩ := rfl
@[simp] theorem genStep_seq (s : State) : (genStep s).seq = s.seq := rfl
@[simp] theorem genStep_status (s : State) : (genStep s).status = s.status := rfl
@[simp] theorem genStep_res (s : State) : (genStep s).res = s.res := rfl
@[simp] theorem genStep_outseq (s : State) : (genStep s).recs.outseq = if engineOut s.lfsr2 then s.recs.outseq ++ [engineOut s.lfsr1 && engineOut s.lfsr2] else s.recs.outseq := rfl
@[simp] theorem genStep_dseq (s : State) : (genStep s).recs.dseq = s.recs.dseq ++ [engineOut s.lfsr1] := rfl
@[simp] theorem genStep_cseq (s : State) : (genStep s).recs.cseq = s.recs.cseq ++ [engineOut s.lfsr2] := rfl
@[simp] theorem genStep_inputs (s : State) : (genStep s).inputs = s.inputs := rfl
@[simp] theorem genStep_hRdata (s : State) : (genStep s).hRdata = s.hRdata := rfl

/-! `loadEffect` (R165). -/

@[simp] theorem loadEffect_cfg (s : State) : (loadEffect s).cfg = s.cfg := rfl
@[simp] theorem loadEffect_ops (s : State) : (loadEffect s).ops = s.ops := rfl
@[simp] theorem loadEffect_lfsr1 (s : State) : (loadEffect s).lfsr1 = loadedEngine s.cfg.wmax s.ops.s1 s.ops.p1 s.ops.s1len := rfl
@[simp] theorem loadEffect_lfsr2 (s : State) : (loadEffect s).lfsr2 = loadedEngine s.cfg.wmax s.ops.s2 s.ops.p2 s.ops.s2len := rfl
@[simp] theorem loadEffect_steps (s : State) : (loadEffect s).steps = 0 := rfl
@[simp] theorem loadEffect_acc (s : State) : (loadEffect s).acc = Accumulator.zero := rfl
@[simp] theorem loadEffect_last (s : State) : (loadEffect s).last = LastOut.zero := rfl
@[simp] theorem loadEffect_seq (s : State) : (loadEffect s).seq = s.seq := rfl
@[simp] theorem loadEffect_status (s : State) : (loadEffect s).status = clearErrorFlags { s.status with loaded := true } := rfl
@[simp] theorem loadEffect_res (s : State) : (loadEffect s).res = Results.zero := rfl
@[simp] theorem loadEffect_recs (s : State) : (loadEffect s).recs = Records.empty := rfl
@[simp] theorem loadEffect_inputs (s : State) : (loadEffect s).inputs = s.inputs := rfl
@[simp] theorem loadEffect_hRdata (s : State) : (loadEffect s).hRdata = s.hRdata := rfl

/-! `landEval` (R170). -/

@[simp] theorem landEval_cfg (s : State) : (landEval s).cfg = s.cfg := rfl
@[simp] theorem landEval_ops (s : State) : (landEval s).ops = s.ops := rfl
@[simp] theorem landEval_lfsr1 (s : State) : (landEval s).lfsr1 = s.lfsr1 := rfl
@[simp] theorem landEval_lfsr2 (s : State) : (landEval s).lfsr2 = s.lfsr2 := rfl
@[simp] theorem landEval_steps (s : State) : (landEval s).steps = s.steps := rfl
@[simp] theorem landEval_acc (s : State) : (landEval s).acc = s.acc := rfl
@[simp] theorem landEval_last (s : State) : (landEval s).last = s.last := rfl
@[simp] theorem landEval_seq (s : State) : (landEval s).seq = { s.seq with phase := .eval, ecnt := s.cfg.tEval, chain := false } := rfl
@[simp] theorem landEval_status (s : State) : (landEval s).status = clearErrorFlags s.status := rfl
@[simp] theorem landEval_res (s : State) : (landEval s).res = s.res := rfl
@[simp] theorem landEval_recs (s : State) : (landEval s).recs = s.recs := rfl
@[simp] theorem landEval_inputs (s : State) : (landEval s).inputs = s.inputs := rfl
@[simp] theorem landEval_hRdata (s : State) : (landEval s).hRdata = s.hRdata := rfl

/-! `State.block` (the block without the host's schedule). -/

@[simp] theorem State.block_cfg (s : State) : (s.block).cfg = s.cfg := rfl
@[simp] theorem State.block_ops (s : State) : (s.block).ops = s.ops := rfl
@[simp] theorem State.block_lfsr1 (s : State) : (s.block).lfsr1 = s.lfsr1 := rfl
@[simp] theorem State.block_lfsr2 (s : State) : (s.block).lfsr2 = s.lfsr2 := rfl
@[simp] theorem State.block_steps (s : State) : (s.block).steps = s.steps := rfl
@[simp] theorem State.block_acc (s : State) : (s.block).acc = s.acc := rfl
@[simp] theorem State.block_last (s : State) : (s.block).last = s.last := rfl
@[simp] theorem State.block_seq (s : State) : (s.block).seq = s.seq := rfl
@[simp] theorem State.block_status (s : State) : (s.block).status = s.status := rfl
@[simp] theorem State.block_res (s : State) : (s.block).res = s.res := rfl
@[simp] theorem State.block_recs (s : State) : (s.block).recs = s.recs := rfl
@[simp] theorem State.block_inputs (s : State) : (s.block).inputs = [] := rfl
@[simp] theorem State.block_hRdata (s : State) : (s.block).hRdata = 0 := rfl

/-! The flags a command writes (R45) and the BUSY view (R40). -/

@[simp] theorem clearErrorFlags_loaded (f : Status) : (clearErrorFlags f).loaded = f.loaded := rfl
@[simp] theorem clearErrorFlags_err (f : Status) : (clearErrorFlags f).err = false := rfl
@[simp] theorem clearErrorFlags_cause (f : Status) : (clearErrorFlags f).cause = .none := rfl
@[simp] theorem clearErrorFlags_einfo (f : Status) : (clearErrorFlags f).einfo = 0 := rfl
@[simp] theorem clearErrorFlags_busywr (f : Status) : (clearErrorFlags f).busywr = f.busywr := rfl
@[simp] theorem raiseErrorFlags_loaded (c : Cause) (i : BitVec 2) (f : Status) :
    (raiseErrorFlags c i f).loaded = f.loaded := rfl
@[simp] theorem raiseErrorFlags_err (c : Cause) (i : BitVec 2) (f : Status) : (raiseErrorFlags c i f).err = true := rfl
@[simp] theorem raiseErrorFlags_cause (c : Cause) (i : BitVec 2) (f : Status) :
    (raiseErrorFlags c i f).cause = c := rfl
@[simp] theorem raiseErrorFlags_einfo (c : Cause) (i : BitVec 2) (f : Status) :
    (raiseErrorFlags c i f).einfo = i := rfl
@[simp] theorem raiseErrorFlags_busywr (c : Cause) (i : BitVec 2) (f : Status) :
    (raiseErrorFlags c i f).busywr = f.busywr := rfl

theorem busy_eq_false_iff (s : State) : s.busy = false ↔ s.seq.phase = .idle := by
  unfold State.busy; split <;> simp_all

theorem busy_eq_true_iff (s : State) : s.busy = true ↔ s.seq.phase ≠ .idle := by
  unfold State.busy; split <;> simp_all

/-- BUSY is a function of PHASE alone. -/
theorem busy_congr {s t : State} (h : t.seq.phase = s.seq.phase) : t.busy = s.busy := by
  unfold State.busy; rw [h]

@[simp] theorem lowerSv_busy (s : State) : (lowerSv s).busy = s.busy := rfl
@[simp] theorem takePins_busy (s : State) : (takePins s).busy = s.busy := rfl
@[simp] theorem dropWrite_busy (s : State) : (dropWrite s).busy = s.busy := rfl
@[simp] theorem State.block_busy (s : State) : s.block.busy = s.busy := rfl

end Sys2Proof.Machine
end

