-- ==== Sys2Proof/Laws/Ops.lean ====
section
/-! SUPPORT. What each shared operation can do, said once: a host write, a read, an instruction, an edge. -/

namespace Sys2Proof.Machine

theorem hostWrite_of_busy (f : State → State) (s : State) (h : s.busy = true) :
    hostWrite f s = .next (dropWrite s) := by
  simp [hostWrite, h]

theorem hostWrite_of_idle (f : State → State) (s : State) (h : s.busy = false) :
    hostWrite f s = .next (f (lowerSv s)) := by
  simp [hostWrite, h]

/-- The value of a register depends on no field of the model's own. -/
theorem readReg_takePins (s : State) (a : RegNo) : readReg (takePins s) a = readReg s a := by
  unfold readReg readName
  cases regName a <;> rfl

/-- What an instruction other than RD does when it lands (R161). -/
def landOf : Instr → State → State
  | .wr a v => landWrite a v
  | .nop => landNop
  | .start => landStart
  | .load => landLoad
  | .step => landStep
  | .run => landRun
  | .eval => landEval
  | .clear => landClear
  | .cmdIllegal _ => landIllegal
  | .rd _ => id

/-- Every instruction that is a write is a `hostWrite` of what it does when it lands. -/
theorem exec_write (i : Instr) (s : State) (h : weField (encode i) = true) : exec i s = hostWrite (landOf i) s := by
  cases i
  case rd a => simp [encode, weField_packT39] at h
  all_goals rfl

theorem exec_rd (a : RegNo) (s : State) :
    exec (.rd a) s =
      .next (if s.busy then { s with hRdata := readReg s a } else lowerSv { s with hRdata := readReg s a }) := rfl

theorem step_of_rst (s : State) (h : (nextPins s).rst = true) : step s = .next (resetEdge s) := by
  simp [step, h]

theorem step_of_nothing (s : State) (h : (nextPins s).rst = false) (hv : (nextPins s).hValid = false) :
    step s = .next (microStep (takePins s)) := by
  simp [step, h, transactionOf, hv]

theorem step_of_transaction (s : State) (h : (nextPins s).rst = false) (hv : (nextPins s).hValid = true) :
    step s =
      finishEdge s.busy
        (exec (decode (packT39 (nextPins s).hWe (nextPins s).hAddr (nextPins s).hWdata)) (takePins s)) := by
  simp [step, h, transactionOf, hv]

/-- The state a busy edge's micro-step starts from: the pins taken, the read data recorded, BUSYWR set by a write. -/
def busyStart (s : State) : State :=
  { s with
    inputs := s.inputs.tail
    hRdata := hRdataPin s (nextPins s)
    status := { s.status with busywr := s.status.busywr || ((nextPins s).hValid && (nextPins s).hWe) } }

/-- Every edge of a busy block without a reset, whatever the host presents, in one form. -/
theorem step_of_busy (s : State) (h : s.busy = true) (hr : (nextPins s).rst = false) :
    step s = .next (microStep (busyStart s)) := by
  cases hv : (nextPins s).hValid
  · rw [step_of_nothing s hr hv]; simp [busyStart, takePins, hRdataPin, hv]
  · rw [step_of_transaction s hr hv]
    cases hw : (nextPins s).hWe
    · rw [decode_of_read, exec_rd]
      simp only [takePins_busy, h, if_true, readReg_takePins, finishEdge]
      simp [busyStart, takePins, hRdataPin, hv, hw]
    · rw [exec_write _ _ (encode_of_decoded_write _ _), hostWrite_of_busy _ _ (by simpa using h)]
      simp [finishEdge, h, dropWrite, busyStart, takePins, hRdataPin, hv, hw]

/-- An edge of the IDLE phase at which the host reads. -/
theorem step_of_idle_read (s : State) (h : s.busy = false) (hr : (nextPins s).rst = false)
    (hv : (nextPins s).hValid = true) (hw : (nextPins s).hWe = false) :
    step s = .next { lowerSv (takePins s) with hRdata := readReg s (nextPins s).hAddr } := by
  rw [step_of_transaction s hr hv, hw, decode_of_read, exec_rd]
  simp [finishEdge, h, takePins_busy, readReg_takePins, lowerSv]

/-- An edge of the IDLE phase at which the host writes: the write lands. -/
theorem step_of_idle_write (s : State) (h : s.busy = false) (hr : (nextPins s).rst = false)
    (hv : (nextPins s).hValid = true) (hw : (nextPins s).hWe = true) :
    step s =
      .next (landOf (decode (packT39 true (nextPins s).hAddr (nextPins s).hWdata)) (lowerSv (takePins s))) := by
  rw [step_of_transaction s hr hv, hw, exec_write _ _ (encode_of_decoded_write _ _),
    hostWrite_of_idle _ _ (by simpa using h)]
  simp [finishEdge, h]

/-- An edge of the IDLE phase at which the host presents nothing. -/
theorem step_of_idle_nothing (s : State) (h : s.busy = false) (hr : (nextPins s).rst = false)
    (hv : (nextPins s).hValid = false) : step s = .next (lowerSv (takePins s)) := by
  have hp : s.seq.phase = .idle := (busy_eq_false_iff s).1 h
  rw [step_of_nothing s hr hv, microStep]
  simp [hp]

/-- What a step can do, in five cases: reset; a micro-step of a busy block; and in the IDLE phase nothing, a read, a
landing write. Each answers a next state. -/
theorem step_cases (s : State) :
    ((nextPins s).rst = true ∧ step s = .next (resetEdge s)) ∨
    ((nextPins s).rst = false ∧ s.busy = true ∧ step s = .next (microStep (busyStart s))) ∨
    ((nextPins s).rst = false ∧ s.busy = false ∧ (nextPins s).hValid = false ∧
      step s = .next (lowerSv (takePins s))) ∨
    ((nextPins s).rst = false ∧ s.busy = false ∧ (nextPins s).hValid = true ∧ (nextPins s).hWe = false ∧
      step s = .next { lowerSv (takePins s) with hRdata := readReg s (nextPins s).hAddr }) ∨
    ((nextPins s).rst = false ∧ s.busy = false ∧ (nextPins s).hValid = true ∧ (nextPins s).hWe = true ∧
      step s =
        .next (landOf (decode (packT39 true (nextPins s).hAddr (nextPins s).hWdata)) (lowerSv (takePins s)))) := by
  cases hr : (nextPins s).rst
  · cases hb : s.busy
    · cases hv : (nextPins s).hValid
      · exact .inr (.inr (.inl ⟨rfl, rfl, rfl, step_of_idle_nothing s hb hr hv⟩))
      · cases hw : (nextPins s).hWe
        · exact .inr (.inr (.inr (.inl ⟨rfl, rfl, rfl, rfl, step_of_idle_read s hb hr hv hw⟩)))
        · exact .inr (.inr (.inr (.inr ⟨rfl, rfl, rfl, rfl, step_of_idle_write s hb hr hv hw⟩)))
    · exact .inr (.inl ⟨rfl, rfl, step_of_busy s hb hr⟩)
  · exact .inl ⟨rfl, step_of_rst s hr⟩

end Sys2Proof.Machine
end

