-- ==== Sys2Proof/Laws/PerInstr.lean ====
section
/-! SUPPORT. Statements about every instruction as syntax, one lemma per constructor. -/

namespace Sys2Proof.Laws.Encoding

/-- 30_encoding.md R82: the word of an instruction matches the table row that bears its mnemonic. -/
def Statement (i : Instr) : Prop :=
  ∃ row ∈ opcodeRows, row.mnemonic = mnemonicOf i ∧ encode i &&& row.mask = row.pattern

theorem nop : Statement .nop := ⟨⟨"NOP", 0x7FFFFFFFFF, 0x4300000000⟩, by decide, rfl, by decide⟩

theorem start : Statement .start := ⟨⟨"START", 0x7FFFFFFFFF, 0x4300000001⟩, by decide, rfl, by decide⟩

theorem load : Statement .load := ⟨⟨"LOAD", 0x7FFFFFFFFF, 0x4300000002⟩, by decide, rfl, by decide⟩

theorem step : Statement .step := ⟨⟨"STEP", 0x7FFFFFFFFF, 0x4300000003⟩, by decide, rfl, by decide⟩

theorem run : Statement .run := ⟨⟨"RUN", 0x7FFFFFFFFF, 0x4300000004⟩, by decide, rfl, by decide⟩

theorem eval : Statement .eval := ⟨⟨"EVAL", 0x7FFFFFFFFF, 0x4300000005⟩, by decide, rfl, by decide⟩

theorem clear : Statement .clear := ⟨⟨"CLEAR", 0x7FFFFFFFFF, 0x4300000006⟩, by decide, rfl, by decide⟩

theorem cmdIllegal (v : Word) : Statement (.cmdIllegal v) := by
  refine ⟨⟨"CMD.ILLEGAL", 0x7F00000000, 0x4300000000⟩, by decide, rfl, ?_⟩
  have mask_fields : (0x7F00000000 : T39) = packT39 true 0x3F 0 := by decide
  rw [encode, mask_fields, packT39_and, show v &&& 0 = 0 from BitVec.and_zero]
  decide

theorem wr (addr : RegNo) (wdata : Word) : Statement (.wr addr wdata) := by
  refine ⟨⟨"WR", 0x4000000000, 0x4000000000⟩, by decide, rfl, ?_⟩
  have mask_fields : (0x4000000000 : T39) = packT39 true 0 0 := by decide
  rw [encode, mask_fields, packT39_and, show wdata &&& 0 = 0 from BitVec.and_zero,
    show addr &&& 0 = 0 from BitVec.and_zero, Bool.and_self]

theorem rd (addr : RegNo) : Statement (.rd addr) := by
  refine ⟨⟨"RD", 0x4000000000, 0x0000000000⟩, by decide, rfl, ?_⟩
  have mask_fields : (0x4000000000 : T39) = packT39 true 0 0 := by decide
  rw [encode, mask_fields, packT39_and, show addr &&& 0 = 0 from BitVec.and_zero]
  decide

end Sys2Proof.Laws.Encoding
end

