-- ==== Sys2Proof/Laws/Runs.lean ====
section
/-! SUPPORT. Runs of several edges: how `afterSteps` and `genSteps` unfold and compose, and that a micro-step reads
neither the host's schedule nor the record of read data. -/

namespace Sys2Proof.Machine

theorem core_run_succ (n : Nat) {s t : State} (h : step s = .next t) :
    Host.Core.run Sys2Proof.core (n + 1) s = Host.Core.run Sys2Proof.core n t := by
  have hc : Sys2Proof.core.step s = .next t := h
  simp only [Host.Core.run, hc]

theorem core_run_next (n : Nat) : ∀ s : State, ∃ t, Host.Core.run Sys2Proof.core n s = .next t := by
  induction n with
  | zero => exact fun s => ⟨s, rfl⟩
  | succ n ih =>
    intro s
    obtain ⟨t, ht⟩ : ∃ t, step s = .next t := by
      rcases step_cases s with h | h | h | h | h <;> simp [h]
    obtain ⟨u, hu⟩ := ih t
    exact ⟨u, (core_run_succ n ht).trans hu⟩

theorem afterSteps_zero (s : State) : afterSteps 0 s = s := rfl

theorem afterSteps_succ (n : Nat) {s t : State} (h : step s = .next t) : afterSteps (n + 1) s = afterSteps n t := by
  obtain ⟨u, hu⟩ := core_run_next n t
  unfold afterSteps
  rw [core_run_succ n h, hu]

theorem afterSteps_add (a b : Nat) (s : State) : afterSteps (a + b) s = afterSteps b (afterSteps a s) := by
  induction a generalizing s with
  | zero => rw [Nat.zero_add, afterSteps_zero]
  | succ a ih =>
    obtain ⟨t, ht⟩ : ∃ t, step s = .next t := by
      rcases step_cases s with h | h | h | h | h <;> simp [h]
    rw [Nat.succ_add, afterSteps_succ _ ht, afterSteps_succ _ ht, ih]

theorem genSteps_succ (n : Nat) (s : State) : genSteps (n + 1) s = genSteps n (genStep s) := rfl

theorem genSteps_add (a b : Nat) (s : State) : genSteps (a + b) s = genSteps b (genSteps a s) := by
  induction a generalizing s with
  | zero => rw [Nat.zero_add]; rfl
  | succ a ih => rw [Nat.succ_add, genSteps_succ, genSteps_succ, ih]

/-- A generation step neither reads nor writes the sequencer, the results and the status flags. -/
theorem genSteps_update (n : Nat) (s : State) (q : Sequencer) (r : Results) (f : Status) :
    genSteps n { s with seq := q, res := r, status := f } = { genSteps n s with seq := q, res := r, status := f } := by
  induction n generalizing s with
  | zero => rfl
  | succ n ih => exact ih (genStep s)

theorem genSteps_block (n : Nat) (s : State) : (genSteps n s).block = genSteps n s.block := by
  induction n generalizing s with
  | zero => rfl
  | succ n ih => exact ih (genStep s)

theorem microStep_block (s : State) : (microStep s).block = microStep s.block := by
  unfold microStep
  cases hp : s.seq.phase with
  | idle => simp [hp, State.block, lowerSv]
  | run =>
    have hb : s.block.seq.phase = .run := hp
    simp only [hb]; rfl
  | eval =>
    have hb : s.block.seq.phase = .eval := hp
    simp only [hb, evalEdge, applyEvaluate]
    by_cases h1 : 1 < s.seq.ecnt
    · simp only [State.block, h1, if_true]; rfl
    · simp only [State.block, h1, if_false, lowerSv]
      cases evaluate s.cfg s.lfsr1.w.toNat s.lfsr2.w.toNat s.acc.c0.toNat s.acc.c1.toNat <;> rfl

/-! The micro-steps, case by case (43_commands.md R172). -/

/-- `Evaluate` neither reads nor writes the sequencer. -/
theorem applyEvaluate_seq (s : State) (q : Sequencer) :
    applyEvaluate { s with seq := q } = { applyEvaluate s with seq := q } := by
  unfold applyEvaluate
  simp only []
  cases evaluate s.cfg s.lfsr1.w.toNat s.lfsr2.w.toNat s.acc.c0.toNat s.acc.c1.toNat <;> rfl

/-- `Evaluate` writes the results and ERR, CAUSE, EINFO only. -/
theorem applyEvaluate_frame (s : State) :
    applyEvaluate s = { s with res := (applyEvaluate s).res, status := (applyEvaluate s).status } ∧
      (applyEvaluate s).status.loaded = s.status.loaded ∧ (applyEvaluate s).status.busywr = s.status.busywr := by
  unfold applyEvaluate
  cases evaluate s.cfg s.lfsr1.w.toNat s.lfsr2.w.toNat s.acc.c0.toNat s.acc.c1.toNat <;> exact ⟨rfl, rfl, rfl⟩

theorem microStep_run (s : State) (r : Word) (e : Nat) (c : Bool) (h : r ≠ 1) :
    microStep { s with seq := ⟨.run, r, e, c⟩ } = { genStep s with seq := ⟨.run, r - 1, e, c⟩ } := by
  simp only [microStep, runEdge, if_neg h]; rfl

theorem microStep_run_last (s : State) (e : Nat) (c : Bool) :
    microStep { s with seq := ⟨.run, 1, e, c⟩ } =
      { genStep s with seq := if c then ⟨.eval, 0, s.cfg.tEval, true⟩ else ⟨.idle, 0, e, false⟩ } := by
  simp only [microStep, runEdge, if_true]
  cases c <;> rfl

theorem microStep_eval (s : State) (r : Word) (n : Nat) (c : Bool) :
    microStep { s with seq := ⟨.eval, r, n + 2, c⟩ } = { lowerSv s with seq := ⟨.eval, r, n + 1, c⟩ } := by
  simp only [microStep, evalEdge, Nat.one_lt_succ_succ, if_true]; rfl

theorem microStep_eval_last (s : State) (r : Word) (c : Bool) :
    microStep { s with seq := ⟨.eval, r, 1, c⟩ } = { applyEvaluate (lowerSv s) with seq := ⟨.idle, r, 0, false⟩ } := by
  have hseq : lowerSv { s with seq := ⟨.eval, r, 1, c⟩ } = { lowerSv s with seq := ⟨.eval, r, 1, c⟩ } := rfl
  simp only [microStep, evalEdge, hseq, applyEvaluate_seq, Nat.lt_irrefl, if_false]

end Sys2Proof.Machine
end

