-- ==== Sys2Proof/Laws/Units.lean ====
section
/-! SUPPORT. What the units and the configuration check can do, said once: bits of masks and registers, `combine` at its
end, counters that do not wrap, the causes a check or an evaluation names, and what a passed check gives. -/

namespace Sys2Proof.Machine

/-! Bits of a register (00_scope.md R7, R8). -/

theorem getLsbD_mask (w i : Nat) : (mask w).getLsbD i = (decide (i < 32) && decide (i < w)) := by
  simp [mask, BitVec.getLsbD_ofNat, Nat.testBit_two_pow_sub_one]

theorem getLsbD_of_lt (v : Word) (w i : Nat) (h : v.toNat < 2 ^ w) (hi : w ≤ i) : v.getLsbD i = false :=
  Nat.testBit_lt_two_pow (lt_of_lt_of_le h (Nat.pow_le_pow_right (by norm_num) hi))

theorem lt_of_getLsbD (v : Word) (w : Nat) (h : ∀ i, w ≤ i → v.getLsbD i = false) : v.toNat < 2 ^ w :=
  Nat.lt_pow_two_of_testBit _ h

theorem toNat_succ (x : Word) (h : x.toNat < 2 ^ 32 - 1) : (x + 1).toNat = x.toNat + 1 := by
  have h1 : (1 : Word).toNat = 1 := rfl
  rw [BitVec.toNat_add, h1]; omega

theorem toNat_pred (r : Word) (h : 1 ≤ r.toNat) : (r - 1).toNat = r.toNat - 1 := by
  rw [BitVec.toNat_sub_of_le (by simpa [BitVec.le_def] using h)]; rfl

/-! The engine (40_lfsr_engine.md). -/

theorem lfsrNext_lt (r t : Word) (w : Nat) : (lfsrNext r t w).toNat < 2 ^ w := by
  apply lt_of_getLsbD
  intro i hi
  rw [lfsrNext, BitVec.getLsbD_and, getLsbD_mask]
  simp [Nat.not_lt.2 hi]

theorem Engine.Fits.engineStep {wmax : Nat} {e : Engine} (h : e.Fits wmax) : (engineStep e).Fits wmax :=
  ⟨h.1, lfsrNext_lt _ _ _, h.2.2⟩

/-! The combiner and the accumulator (41_shrinking_combiner.md R122, 42_chi_squared_test.md R130). -/

theorem combine_concat (ds cs : List Bool) (d c : Bool) (h : ds.length = cs.length) :
    combine (ds ++ [d]) (cs ++ [c]) = combine ds cs ++ (if c then [d] else []) := by
  induction ds generalizing cs with
  | nil => cases cs <;> simp_all [combine]
  | cons a ds ih =>
    cases cs with
    | nil => simp at h
    | cons b cs =>
      have h' : ds.length = cs.length := by simpa using h
      cases b <;> simp [combine, ih cs h']

theorem combinerPorts_of_valid (d c : Bool) : combinerPorts true d c = combineBit d c := by
  cases d <;> cases c <;> rfl

/-! The configuration check (43_commands.md R164). -/

theorem checkConfig_cause {cfg : Config} {o : OperandRegs} {e : Raised} (h : checkConfig cfg o = some e) :
    e.cause = .eWidth ∨ e.cause = .eMismatch ∨ e.cause = .eStray := by
  simp only [checkConfig] at h
  split_ifs at h <;> simp at h <;> subst h <;> simp

theorem checkStart_cause {cfg : Config} {o : OperandRegs} {e : Raised} (h : checkStart cfg o = some e) :
    e.cause = .eWidth ∨ e.cause = .eMismatch ∨ e.cause = .eStray ∨ e.cause = .eLen := by
  simp only [checkStart] at h
  split at h
  · next e' he =>
    obtain rfl : e' = e := by simpa using h
    rcases checkConfig_cause he with h | h | h <;> simp [h]
  · split_ifs at h <;> simp at h <;> subst h <;> simp

theorem checkConfig_none {cfg : Config} {o : OperandRegs} (h : checkConfig cfg o = none) :
    (widthBad cfg.wmax o.p1len o.s1len = false ∧ widthBad cfg.wmax o.p2len o.s2len = false) ∧
    (lengthsDiffer o.p1len o.s1len = false ∧ lengthsDiffer o.p2len o.s2len = false) ∧
    (strayBits o.p1 o.p1len o.s1 o.s1len = false ∧ strayBits o.p2 o.p2len o.s2 o.s2len = false) := by
  simp only [checkConfig] at h
  split_ifs at h
  simp_all

theorem checkStart_none {cfg : Config} {o : OperandRegs} (h : checkStart cfg o = none) :
    checkConfig cfg o = none ∧ o.len ≠ 0 ∧ o.len.toNat ≤ cfg.lmax := by
  simp only [checkStart] at h
  split at h
  · simp at h
  · split_ifs at h with h0 h1
    exact ⟨‹_›, h0, Nat.not_lt.1 h1⟩

theorem lt_of_no_stray (v len : Word) (h : v >>> len.toNat = 0) : v.toNat < 2 ^ len.toNat := by
  apply lt_of_getLsbD
  intro i hi
  have hbit := congrArg (fun x : Word => x.getLsbD (i - len.toNat)) h
  simpa [show len.toNat + (i - len.toNat) = i by omega] using hbit

/-- The engine set up from an operand pair that passed the check: nothing is lost by the truncations (R165). -/
theorem loadedEngine_of_checked {wmax : Nat} {p plen s slen : Word} (hw : wmax ≤ 32)
    (h1 : widthBad wmax plen slen = false) (h2 : lengthsDiffer plen slen = false)
    (h3 : strayBits p plen s slen = false) :
    loadedEngine wmax s p slen = ⟨s, p, slen.setWidth 6⟩ ∧ (slen.setWidth 6).toNat = slen.toNat ∧
      1 ≤ slen.toNat ∧ slen.toNat ≤ wmax ∧ s.toNat < 2 ^ slen.toNat ∧ p.toNat < 2 ^ slen.toNat := by
  obtain rfl : plen = slen := by simpa [lengthsDiffer] using h2
  simp [widthBad] at h1
  simp [strayBits] at h3
  have hp := lt_of_no_stray p plen h3.1
  have hs := lt_of_no_stray s plen h3.2
  have masked : ∀ v : Word, v.toNat < 2 ^ plen.toNat → v &&& mask wmax = v := by
    intro v hv
    apply BitVec.eq_of_getLsbD_eq
    intro i hi
    rw [BitVec.getLsbD_and, getLsbD_mask]
    by_cases hh : i < wmax
    · simp [hi, hh]
    · rw [getLsbD_of_lt v _ i hv (by omega)]; simp
  refine ⟨?_, by simp; omega, by omega, by omega, hs, hp⟩
  simp [loadedEngine, engineEdge, masked _ hs, masked _ hp]

/-! The evaluation (42_chi_squared_test.md R133). -/

theorem evaluate_error_cause {cfg : Config} {w1 w2 c0 c1 : Nat} {e : Raised}
    (h : evaluate cfg w1 w2 c0 c1 = .error e) : e.cause = .eWidth2 ∨ e.cause = .eDomain := by
  unfold evaluate at h
  split_ifs at h <;> simp at h <;> subst h <;> simp

theorem evaluate_ok {cfg : Config} {w1 w2 c0 c1 : Nat} {r : Results} (h : evaluate cfg w1 w2 c0 c1 = .ok r) :
    1 ≤ w2 ∧ 1 ≤ c0 + c1 ∧ r = resultsOf cfg w1 w2 c0 c1 := by
  unfold evaluate at h
  split_ifs at h with h1 h2
  exact ⟨by omega, by omega, by simpa using h.symm⟩

theorem symbolsObserved_eq_two {c0 c1 : Nat} : symbolsObserved c0 c1 = 2 ↔ 0 < c0 ∧ 0 < c1 := by
  unfold symbolsObserved
  split_ifs <;> simp_all

/-- When both symbols were observed the key is one of the table's (42_chi_squared_test.md R146). -/
theorem keyOf_in_table {c0 c1 : Nat} (h : symbolsObserved c0 c1 = 2) :
    1 ≤ keyOf (c0 + c1) ∧ keyOf (c0 + c1) ≤ 16 := by
  have := symbolsObserved_eq_two.1 h
  unfold keyOf
  omega

/-! The units' ports (40_lfsr_engine.md R104, 41_shrinking_combiner.md R126, 42_chi_squared_test.md R152): the block's
steps are the edges of its units under the strobes each event drives. -/

/-- A generation step drives `step` of both engines, whatever their other inputs are. -/
theorem genStep_engines (s : State) (seed poly : Word) (width : BitVec 6) :
    (genStep s).lfsr1 = engineEdge false false true seed poly width s.lfsr1 ∧
      (genStep s).lfsr2 = engineEdge false false true seed poly width s.lfsr2 := ⟨rfl, rfl⟩

/-- It drives `in_valid` of the accumulator with the combiner's outputs for a valid pair. -/
theorem genStep_accumulator (s : State) :
    (genStep s).acc =
      accumulatorEdge false false (combinerPorts true (engineOut s.lfsr1) (engineOut s.lfsr2)).1
        (combinerPorts true (engineOut s.lfsr1) (engineOut s.lfsr2)).2 s.acc := by
  rw [combinerPorts_of_valid]; rfl

/-- A load drives `load` of both engines and `clr` of the accumulator, which win over a step. -/
theorem loadEffect_units (s : State) (strobe inValid inBit : Bool) :
    (loadEffect s).lfsr1 =
        engineEdge false true strobe (s.ops.s1 &&& mask s.cfg.wmax) (s.ops.p1 &&& mask s.cfg.wmax)
          (s.ops.s1len.setWidth 6) s.lfsr1 ∧
      (loadEffect s).lfsr2 =
        engineEdge false true strobe (s.ops.s2 &&& mask s.cfg.wmax) (s.ops.p2 &&& mask s.cfg.wmax)
          (s.ops.s2len.setWidth 6) s.lfsr2 ∧
      (loadEffect s).acc = accumulatorEdge false true inValid inBit s.acc := ⟨rfl, rfl, rfl⟩

/-- The end of an evaluation drives `eval_done`, which wins over `clr_results`. -/
theorem applyEvaluate_results (s : State) (clr : Bool) :
    (applyEvaluate s).res =
      resultsEdge false clr true s.cfg s.lfsr1.w.toNat s.lfsr2.w.toNat s.acc.c0.toNat s.acc.c1.toNat s.res := by
  unfold applyEvaluate resultsEdge
  cases evaluate s.cfg s.lfsr1.w.toNat s.lfsr2.w.toNat s.acc.c0.toNat s.acc.c1.toNat <;> rfl

/-- A reset drives `rst` of every unit, which wins over all. -/
theorem resetBlock_units (s : State) (load strobe clr inValid inBit done : Bool) (seed poly : Word) (width : BitVec 6) :
    (resetBlock s).lfsr1 = engineEdge true load strobe seed poly width s.lfsr1 ∧
      (resetBlock s).lfsr2 = engineEdge true load strobe seed poly width s.lfsr2 ∧
      (resetBlock s).acc = accumulatorEdge true clr inValid inBit s.acc ∧
      (resetBlock s).res =
        resultsEdge true clr done s.cfg s.lfsr1.w.toNat s.lfsr2.w.toNat s.acc.c0.toNat s.acc.c1.toNat s.res :=
  ⟨rfl, rfl, rfl, rfl⟩

/-- An engine that was never loaded emits 0 and keeps its register 0 (R104). -/
theorem engine_of_width_zero (e : Engine) (h : e.w = 0) : engineOut e = false ∧ (engineStep e).r = 0 := by
  refine ⟨by simp [engineOut, h, lfsrOut], BitVec.eq_of_toNat_eq ?_⟩
  have hlt := lfsrNext_lt e.r e.t e.w.toNat
  simp [h] at hlt
  simp [engineStep, h, hlt]

end Sys2Proof.Machine
end

