-- ==== Sys2Proof/Tests/Slice0.lean ====
section
/-! SUPPORT. The model's own tests: the checks of `Instr.wf`, words written out from the encodings, one-step examples of
the spec (expected values from spec/95_test_vectors.md and the rules' examples), and for every statement of
Certificates/Slice0/Obligations.lean with hypotheses a concrete case that meets them. -/

namespace Sys2Proof.Tests

open Sys2Proof.Machine

set_option maxRecDepth 8000

/-! ## Small states -/

/-- The state an instruction answers, from a state. -/
def answered (i : Instr) (s : State) : State :=
  match exec i s with
  | .next t => t
  | .fault _ => s
  | .refused _ => s

/-- A block after reset with operands staged. -/
def staged (o : OperandRegs) : State := { State.reset with ops := o }

/-- The operands of the end-to-end scenario (95, E11 and P1). -/
def scenario : OperandRegs := ⟨8, 3, 3, 5, 3, 5, 3, 6, 3⟩

/-- A rotating two-bit data register and a control stream of ones: two steps give the sequence `[1, 0]` (R111). -/
def oneZero : OperandRegs := ⟨2, 2, 2, 2, 2, 1, 1, 1, 1⟩

/-- The scenario loaded. -/
def loaded : State := answered .load (staged scenario)

/-- The scenario started: a RUN phase with eight steps to go. -/
def running : State := answered .start (staged scenario)

/-- A RUN phase with one step to go. -/
def lastStep : State := answered .start (staged { oneZero with len := 1 })

/-- Two steps made: `C0 = C1 = 1`. -/
def counted : State := answered .step (answered .step (answered .load (staged oneZero)))

/-- The evaluation of `counted` in progress, at its last edge. -/
def evaluating : State := answered .eval counted

/-- The results of `counted` written. -/
def evaluated : State := afterSteps 1 evaluating

/-- The pins of a reset with a write presented beside it. -/
def resetPins : PinSample := ⟨true, true, true, 0x08, 3⟩

/-- A state with pins presented at the coming edge. -/
def presenting (i : Instr) (s : State) : State := { s with inputs := scriptCmd i }

/-- The operands of a vector of 95 section 2.4, LEN first and then the four pairs. -/
def operands (len p1 p1len s1 s1len p2 p2len s2 s2len : Word) : OperandRegs :=
  ⟨len, p1, p1len, s1, s1len, p2, p2len, s2, s2len⟩

/-! ## Well-formedness and decoding -/

/-- R84: the data of an illegal command is no opcode. -/
theorem test_wf_refuses_opcode_as_illegal_command : (Instr.cmdIllegal 6).wf = false := by decide

/-- R83: a generic write does not address CMD. -/
theorem test_wf_refuses_generic_write_to_cmd : (Instr.wr 0x03 0).wf = false := by decide

/-- R80: a transaction word has 39 bits. -/
theorem test_decode_refuses_bit_39 :
    decodeBits (2 ^ 39) = .error .bitAboveT39 ∧ decodeTableWord 40 (2 ^ 39) = none := by decide

/-- R80, R83: `we = 1`, `addr = 000011`, and the opcode in the last bits. -/
theorem test_decode_nop : decode 0b100001100000000000000000000000000000000 = .nop := by decide

theorem test_decode_start : decode 0b100001100000000000000000000000000000001 = .start := by decide

theorem test_decode_load : decode 0b100001100000000000000000000000000000010 = .load := by decide

theorem test_decode_step : decode 0b100001100000000000000000000000000000011 = .step := by decide

theorem test_decode_run : decode 0b100001100000000000000000000000000000100 = .run := by decide

theorem test_decode_eval : decode 0b100001100000000000000000000000000000101 = .eval := by decide

theorem test_decode_clear : decode 0b100001100000000000000000000000000000110 = .clear := by decide

/-- R84: all 32 bits of the data are compared. -/
theorem test_decode_cmdIllegal :
    decode 0b100001100000000000000000000000000000111 = .cmdIllegal 7 ∧
      decode 0b100001110000000000000000000000000000001 = .cmdIllegal 0x80000001 := by decide

/-- R80: WR of 3 to P1 (`addr = 001000`). -/
theorem test_decode_wr : decode 0b100100000000000000000000000000000000011 = .wr 0x08 3 := by decide

/-- R80, 95 A15: RD of STATUS (`addr = 000100`); the data of a read is ignored. -/
theorem test_decode_rd :
    decode 0b000010000000000000000000000000000000000 = .rd 0x04 ∧ decode 0x0412345678 = .rd 0x04 := by decide

/-- `withFetchWord` puts the word on the pins the next step samples: `WR P1, 3` right after reset (R161). -/
theorem test_withFetchWord :
    (afterSteps 1 (State.reset.withFetchWord 40 0x4800000003)).ops.p1 = 3 := by decide

/-- R85: the worked bit-strings, and a character that is no bit. -/
theorem test_parseBits :
    (parseBits "1 1 0".toList).map assembleBits = some 3 ∧ (parseBits "101".toList).map assembleBits = some 5 ∧
      (parseBits "0 0 0 0 1".toList).map assembleBits = some 16 ∧ parseBits "1 2".toList = none := by decide

/-! ## One step of each instruction -/

/-- R162: after a failed LOAD (95 X2's operands) NOP leaves the error. -/
theorem test_nop_keeps_error :
    readReg (answered .nop (answered .load (staged (operands 8 3 3 5 4 5 3 6 3)))) 0x04 = 0x138 := by decide

/-- 95 section 2.6: START, generating. -/
theorem test_start_runs : readReg running 0x04 = 0x2803 ∧ readReg running 0x1B = 8 := by decide

/-- 95 X4, X7: the checks of START in order. -/
theorem test_start_checks :
    readReg (answered .start (staged (operands 0 3 3 5 3 5 3 6 3))) 0x04 = 0x58 ∧
      readReg (answered .start (staged (operands 0 3 3 5 4 5 3 6 0))) 0x04 = 0x228 := by decide

/-- R165's example. -/
theorem test_load_example :
    ([0x10, 0x11, 0x12, 0x13, 0x14, 0x15, 0x04].map (readReg loaded)) = [5, 3, 3, 6, 5, 3, 2] := by decide

/-- 95 X3, X14: a bit above the length, and none possible at length 32. -/
theorem test_load_stray :
    readReg (answered .load (staged (operands 8 0xB 3 5 3 5 3 6 3))) 0x04 = 0x148 ∧
      readReg (answered .load (staged (operands 1 0xFFFFFFFF 32 0xFFFFFFFF 32 1 1 1 1))) 0x04 = 2 := by decide

/-- R167's example. -/
theorem test_step_example :
    ([0x10, 0x13, 0x16, 0x17, 0x18, 0x19, 0x1A].map (readReg (answered .step loaded))) =
      [3, 5, 1, 1, 0, 1, 0b1111] := by decide

/-- 95 X10. -/
theorem test_step_not_loaded : readReg (answered .step State.reset) 0x04 = 0x68 := by decide

/-- 95 section 2.6: RUN in progress. -/
theorem test_run_runs : readReg (answered .run loaded) 0x04 = 0x803 := by decide

/-- 95 E5: RUN of no steps completes at once without an error. -/
theorem test_run_of_zero_steps :
    readReg (answered .run (answered .load (staged { scenario with len := 0 }))) 0x04 = 2 := by decide

/-- 95 section 2.6: EVAL in progress, loaded. -/
theorem test_eval_accepted : readReg (answered .eval loaded) 0x04 = 0x1003 := by decide

/-- 95 X12: EVAL with nothing loaded, at its completion. -/
theorem test_eval_not_loaded : readReg (afterSteps 1 (answered .eval State.reset)) 0x04 = 0x278 := by decide

/-- R171: CLEAR keeps the operands only. -/
theorem test_clear :
    ([0x04, 0x10, 0x17, 0x20, 0x08].map (readReg (answered .clear evaluated))) = [0, 0, 0, 0, 2] := by decide

/-- 95 X9. -/
theorem test_cmdIllegal : readReg (answered (.cmdIllegal 0x10) State.reset) 0x04 = 0x18 := by decide

/-- 95 A14, A12: all 32 bits are stored; a read-only register ignores the write. -/
theorem test_wr :
    readReg (answered (.wr 0x08 0xDEADBEEF) State.reset) 0x08 = 0xDEADBEEF ∧
      answered (.wr 0x10 9) State.reset = State.reset := by decide

/-- 95 section 2.6: a write dropped while START generates. -/
theorem test_wr_dropped : readReg (answered (.wr 0x08 9) running) 0x04 = 0x2C03 := by decide

/-- 95 A1 to A8. -/
theorem test_rd_constants :
    ([0x00, 0x01, 0x02, 0x03, 0x06, 0x30, 0x31, 0x3F].map fun a => (answered (.rd a) State.reset).hRdata) =
      [0x354C4307, 0x03E81020, 0x7FFFFFFF, 0, 0, 0xF01, 0x1767, 0x66B8] := by decide

/-! ## The units -/

/-- 95 L5, L10, L12, L14. -/
theorem test_lfsr_steps :
    (lfsrOut 5 3, lfsrNext 5 3 3) = (true, 3) ∧
    (lfsrOut 0x80000000 32, lfsrNext 0x80000000 0x80000000 32) = (true, 1) ∧
    (lfsrOut 0xFFFFFFFF 32, lfsrNext 0xFFFFFFFF 0xFFFFFFFF 32) = (true, 0xFFFFFFFE) ∧
    (lfsrOut 0xDEADBEEF 32, lfsrNext 0xDEADBEEF 0x80200003 32) = (true, 0xBD5B7DDE) := by decide

/-- 95 S1, S5, S6. -/
theorem test_combine :
    combine [true, false, true, true, false] [false, true, true, false, true] = [false, true, false] ∧
    combine [true, false, true, true] [true, true] = [true, false] ∧
    combine [true, false] [false, true, true, true] = [false] := by decide

/-- 95 V15: the verdict fails above the critical value. -/
theorem test_evaluate_not_uniform :
    (resultsOf defaultConfig 32 1 1 30).chiMilli = 27129 ∧ (resultsOf defaultConfig 32 1 1 30).crit = 26296 ∧
      (resultsOf defaultConfig 32 1 1 30).uniform = false := by decide

/-- 95 V23: the widest values. -/
theorem test_evaluate_widest :
    (resultsOf defaultConfig 3 3 0 (2 ^ 31 - 1)).chiNum = 0x3FFFFFFF00000001 ∧
      (resultsOf defaultConfig 3 3 0 (2 ^ 31 - 1)).chiDen = 0xFFFFFFFE ∧
      (resultsOf defaultConfig 3 3 0 (2 ^ 31 - 1)).chiMilli = 0xF9FFFFFE0C ∧
      (resultsOf defaultConfig 3 3 0 (2 ^ 31 - 1)).undef = true := by decide

/-! ## The hypotheses of the statements can be met -/

theorem loaded_inv : loaded.Inv :=
  ⟨by decide, by decide, by decide, by decide, by decide, by decide, by decide⟩

theorem running_inv : running.Inv :=
  ⟨by decide, by decide, by decide, by decide, by decide, by decide, by decide⟩

theorem evaluating_inv : evaluating.Inv :=
  ⟨by decide, by decide, by decide, by decide, by decide, by decide, by decide⟩

theorem evaluated_inv : evaluated.Inv :=
  ⟨by decide, by decide, by decide, by decide, by decide, by decide, by decide⟩

theorem test_witness_DecodeOfEncodeIsIdentity :
    (Instr.cmdIllegal 7).wf = true ∧ (Instr.wr 0x3F 0xFFFFFFFF).wf = true ∧ Instr.start.wf = true := by decide

theorem test_witness_EveryWordIsOneTransaction :
    weField 0x4800000003 = true ∧ weField 0x0412345678 = false := by decide

theorem test_witness_AssembledBitStringReadsBack :
    (List.replicate 32 true).length ≤ 32 ∧ ([] : List Bool).length ≤ 32 := by decide

theorem test_witness_StepRunsTheSampledTransaction :
    (nextPins (presenting .start running)).rst = false ∧ (nextPins (presenting .start running)).hValid = true ∧
      (presenting .start running).busy = true ∧
    (nextPins (presenting .load loaded)).rst = false ∧ (nextPins (presenting .load loaded)).hValid = true ∧
      (presenting .load loaded).busy = false := by decide

theorem test_witness_IdleEdgeOnlyLowersSv :
    counted.busy = false ∧ counted.last.sv = true ∧ (nextPins counted).rst = false ∧
      (nextPins counted).hValid = false := by decide

theorem test_witness_RunEdgeIsOneGenerationStep :
    (running.seq.phase = .run ∧ running.seq.rem = 8 ∧ (nextPins running).rst = false) ∧
    (lastStep.seq.phase = .run ∧ lastStep.seq.rem = 1 ∧ lastStep.seq.chain = true ∧
      (nextPins (presenting .nop lastStep)).rst = false ∧ (nextPins (presenting .nop lastStep)).hWe = true) := by
  decide

theorem test_witness_EvalEdgeCountsDownThenEvaluates :
    (evaluating.seq.phase = .eval ∧ evaluating.seq.ecnt = 1 ∧ (nextPins evaluating).rst = false ∧
      (evaluate evaluating.cfg evaluating.lfsr1.w.toNat evaluating.lfsr2.w.toNat evaluating.acc.c0.toNat
        evaluating.acc.c1.toNat).toOption = some evaluated.res) ∧
    ((answered .eval loaded).seq.phase = .eval ∧ (nextPins (answered .eval loaded)).rst = false ∧
      (evaluate loaded.cfg loaded.lfsr1.w.toNat loaded.lfsr2.w.toNat loaded.acc.c0.toNat
        loaded.acc.c1.toNat).toOption = none) ∧
    (answered .eval { loaded with cfg := { defaultConfig with tEval := 2 } }).seq.ecnt = 2 := by decide

theorem test_witness_ResetWinsOverEverything :
    (nextPins { running with inputs := [resetPins] }).rst = true ∧
    (nextPins { running with inputs := [⟨true, true, false, 0x1B, 0⟩] }).rst = true ∧
      readReg running 0x1B = 8 := by decide

theorem test_witness_RegistersReadZeroAfterReset :
    (nextPins { evaluated with inputs := [resetPins] }).rst = true ∧ readReg evaluated 0x20 = 3 ∧
      readReg evaluated 0x2F = 0 ∧ readReg evaluated 0x30 = 3841 := by decide

theorem test_witness_ReadDataIsTheRegisterBeforeTheEdge :
    (nextPins (presenting (.rd 0x1B) running)).hValid = true ∧ (nextPins (presenting (.rd 0x1B) running)).hWe = false ∧
      (nextPins (presenting .nop running)).hWe = true ∧ (nextPins running).hValid = false := by decide

theorem test_witness_WriteLandsOrIsDropped :
    running.busy = true ∧ loaded.busy = false ∧ (0x05 : RegNo) ∈ rwNumbers ∧ (0x0F : RegNo) ∈ rwNumbers ∧
      (0x03 : RegNo) ∉ rwNumbers ∧ (0x06 : RegNo) ∉ rwNumbers ∧ (0x10 : RegNo) ∉ rwNumbers ∧
      (0x1A : RegNo) ∉ rwNumbers := by decide

theorem test_witness_EveryWriteIsDroppedWhileBusy :
    weField (encode .clear) = true ∧ weField (encode (.cmdIllegal 7)) = true ∧
      weField (encode (.wr 0x3F 0)) = true ∧ running.busy = true ∧ evaluating.busy = true := by decide

theorem test_witness_DroppedWriteDisturbsNothing :
    (presenting .clear running).busy = true ∧ (nextPins (presenting .clear running)).rst = false ∧
      (nextPins (presenting .clear running)).hValid = true ∧ (nextPins (presenting .clear running)).hWe = true := by
  decide

theorem test_witness_BusywrIsStickyUntilClear :
    (afterSteps 1 (presenting .nop running)).status.busywr = true ∧
    (afterSteps 1 (presenting .clear { loaded with status := { loaded.status with busywr := true } })).status.busywr =
      false ∧
    (afterSteps 1 (presenting .nop { loaded with status := { loaded.status with busywr := true } })).status.busywr =
      true := by decide

theorem test_witness_StatusWordFields : loaded.busy = false := by decide

theorem test_witness_ConstantRegisters :
    loaded.cfg.Legal ∧ loaded.cfg = defaultConfig ∧ (0x02 : RegNo).toNat ≤ 2 ∧ loaded.busy = false := by decide

theorem test_witness_ReservedNumbersAreInert :
    (0x06 : RegNo) ∈ reservedNumbers ∧ (0x1C : RegNo) ∈ reservedNumbers ∧ (0x2F : RegNo) ∈ reservedNumbers ∧
      loaded.busy = false := by decide

theorem test_witness_OperandsChangeOnlyByLandedWrite :
    (afterSteps 1 (presenting (.wr 0x08 9) loaded)).ops ≠ loaded.ops ∧
      (afterSteps 1 { loaded with inputs := [resetPins] }).ops ≠ loaded.ops := by decide

theorem test_witness_NopChangesNothing : loaded.busy = false ∧ running.busy = true := by decide

theorem test_witness_IllegalCommandReportsECmd :
    7 ≤ (7 : Word).toNat ∧ 7 ≤ (0x80000001 : Word).toNat ∧ loaded.busy = false := by decide

/-- 95 X6, X8, X3 and X1: each outcome of the check. -/
theorem test_witness_ConfigurationCheckOrder :
    checkConfig defaultConfig (operands 0 3 0 5 3 5 33 6 33) = some ⟨.eWidth, 0b11⟩ ∧
    checkConfig defaultConfig (operands 0 3 3 5 4 9 3 6 3) = some ⟨.eMismatch, 0b01⟩ ∧
    checkConfig defaultConfig (operands 8 0xB 3 5 3 5 3 6 3) = some ⟨.eStray, 0b01⟩ ∧
    checkConfig defaultConfig scenario = none := by decide

theorem test_witness_LoadCopiesOperandsExactly :
    (staged scenario).busy = false ∧ (staged scenario).cfg.wmax ≤ 32 ∧
    checkConfig (staged scenario).cfg (staged scenario).ops = none ∧
    checkConfig State.reset.cfg State.reset.ops = some ⟨.eWidth, 0b11⟩ := by decide

theorem test_witness_StartChecksThenLoadsAndRuns :
    (staged scenario).busy = false ∧
    checkConfig State.reset.cfg State.reset.ops = some ⟨.eWidth, 0b11⟩ ∧
    checkConfig defaultConfig scenario = none ∧ 1 ≤ scenario.len.toNat ∧ scenario.len.toNat ≤ defaultConfig.lmax ∧
    checkConfig defaultConfig { scenario with len := 0 } = none ∧
    checkConfig defaultConfig { scenario with len := 0x80000000 } = none ∧
    defaultConfig.lmax < (0x80000000 : Word).toNat ∧ (0x7FFFFFFF : Word).toNat ≤ defaultConfig.lmax := by decide

theorem test_witness_GenerationStepEffect :
    loaded.Inv ∧ loaded.status.loaded = true ∧ loaded.steps.toNat < loaded.cfg.lmax :=
  ⟨loaded_inv, by decide⟩

theorem test_witness_StepCommandIsOneGenerationStep :
    (State.reset.busy = false ∧ State.reset.status.loaded = false) ∧
    (counted.busy = false ∧ counted.status.loaded = true ∧ counted.steps.toNat + 1 ≤ counted.cfg.lmax) ∧
    ({ counted with cfg := { defaultConfig with lmax := 2 } } : State).cfg.lmax < counted.steps.toNat + 1 := by decide

theorem test_witness_RunChecksThenRunsLenSteps :
    (State.reset.busy = false ∧ State.reset.status.loaded = false) ∧
    (loaded.busy = false ∧ loaded.status.loaded = true ∧ loaded.steps.toNat + loaded.ops.len.toNat ≤ loaded.cfg.lmax) ∧
    ({ loaded with cfg := { defaultConfig with lmax := 7 } } : State).cfg.lmax <
      loaded.steps.toNat + loaded.ops.len.toNat ∧
    ({ scenario with len := 0 } : OperandRegs).len.toNat = 0 := by decide

theorem test_witness_EvalIsAcceptedInEveryIdleState : State.reset.busy = false ∧ loaded.busy = false := by decide

theorem test_witness_ClearKeepsOnlyOperands :
    evaluated.busy = false ∧ evaluated.res.resv = true ∧ running.busy = true := by decide

theorem test_witness_RejectedCommandChangesOnlyTheReport :
    State.reset.busy = false ∧ State.reset.status.err = false ∧
    (answered .load State.reset).status.err = true ∧ (answered .start State.reset).status.err = true ∧
    (answered .step State.reset).status.err = true ∧ (answered .run State.reset).status.err = true ∧
    (answered (.cmdIllegal 7) State.reset).status.err = true ∧ (answered (.wr 0x03 7) State.reset).status.err = true := by
  decide

theorem test_witness_RegisterStepIsTheListStep :
    (1 ≤ 3 ∧ 3 ≤ 32 ∧ (5 : Word).toNat < 2 ^ 3 ∧ (3 : Word).toNat < 2 ^ 3) ∧
    ((0xDEADBEEF : Word).toNat < 2 ^ 32 ∧ (0x80200003 : Word).toNat < 2 ^ 32) ∧ (1 : Word).toNat < 2 ^ 1 := by decide

theorem test_witness_RegisterIsTheComingOutputReversed :
    [true, false, true] ≠ [] ∧ [true, true, false].length = [true, false, true].length := by decide

theorem test_witness_LastTapRotatesTheRegister : [false, true, true, false, true] ≠ [] := by decide

/-- 95 X13: all-zero operands, and a non-zero seed beside a zero polynomial. -/
theorem test_witness_ZeroSeedAndZeroPolynomial :
    LengthsInRange defaultConfig.wmax 1 1 ∧ LengthsInRange defaultConfig.wmax 32 32 ∧ (0 : Word) = 0 ∧
      ¬StrayBit 0xFFFFFFFF 32 := by
  refine ⟨by decide, by decide, rfl, ?_⟩
  rintro ⟨i, hi, hbit⟩
  rw [BitVec.getLsbD_of_ge _ _ hi] at hbit
  exact Bool.false_ne_true hbit

theorem test_witness_CombineKeepsOrderAndCountsOnes : evaluated.Inv ∧ evaluated.acc.m = 2 :=
  ⟨evaluated_inv, by decide⟩

theorem test_witness_StatisticClosedForm : 1 ≤ 2 + 3 ∧ 0 < 2 ∧ 0 < 3 ∧ 1 ≤ 0 + 1 ∧ 1 ≤ 1 + 0 := by decide

theorem test_witness_EvaluationIsExact :
    (32 ≤ 32 ∧ 1 ≤ 32 ∧ 1 ≤ (2 ^ 30 : Nat) + (2 ^ 30 - 1) ∧ (2 ^ 30 : Nat) + (2 ^ 30 - 1) < 2 ^ 31) ∧
    (1 ≤ 1 ∧ 1 ≤ 0 + 1 ∧ 0 + 1 < 2 ^ 31) := by decide

theorem test_witness_VerdictIsStatisticBelowCriticalValue : 1 ≤ 1 ∧ 0 < 1 ∧ 0 < 30 := by decide

theorem test_witness_VerdictFromTruncatedStatistic :
    1 + 30 < 2 ^ 31 ∧ evaluate defaultConfig 32 1 1 30 = .ok (resultsOf defaultConfig 32 1 1 30) ∧
      (resultsOf defaultConfig 32 1 1 30).undef = false := ⟨by decide, rfl, by decide⟩

theorem test_witness_EveryEdgeKeepsTheBlockSound :
    (loaded.Inv ∧ ∃ t, step loaded = .next t) ∧ (running.Inv ∧ ∃ t, step running = .next t) ∧
      (evaluating.Inv ∧ step evaluating = .next evaluated) :=
  ⟨⟨loaded_inv, _, rfl⟩, ⟨running_inv, _, rfl⟩, evaluating_inv, rfl⟩

theorem test_witness_RunPhaseEndsOnTime :
    running.seq.phase = .run ∧ running.seq.chain = true ∧ 1 ≤ running.seq.rem.toNat ∧ 1 ≤ running.cfg.tEval ∧
      noReset 9 ({ running with inputs := scriptWaitReads 2 ++ scriptCmd .clear } : State).inputs := by decide

theorem test_witness_ReadsDoNotDisturbTheBlock :
    quietInputs 3 (scriptWaitReads 3) ∧ quietInputs 3 (scriptIdle 2) := by decide

theorem test_witness_RunIsAtomicForAQuietHost :
    loaded.busy = false ∧ loaded.status.loaded = true ∧ 1 ≤ loaded.ops.len.toNat ∧
      loaded.steps.toNat + loaded.ops.len.toNat ≤ loaded.cfg.lmax ∧
      ({ loaded with inputs := scriptCmd .run ++ scriptWaitReads 9 } : State).inputs =
        pinsOfWord (encode .run) :: scriptWaitReads 9 ∧
      quietInputs loaded.ops.len.toNat (scriptWaitReads 9) := by decide

theorem test_witness_EvalIsAtomicForAQuietHost :
    counted.busy = false ∧ 1 ≤ counted.cfg.tEval ∧
      ({ counted with inputs := scriptCmd .eval ++ scriptWaitReads 2 } : State).inputs =
        pinsOfWord (encode .eval) :: scriptWaitReads 2 ∧
      quietInputs counted.cfg.tEval (scriptWaitReads 2) := by decide

theorem test_witness_StartIsAtomicForAQuietHost :
    ({ staged scenario with inputs := scriptCmd .start ++ scriptIdle 9 } : State).busy = false ∧
      checkConfig defaultConfig scenario = none ∧ 1 ≤ scenario.len.toNat ∧
      scenario.len.toNat ≤ defaultConfig.lmax ∧ 1 ≤ defaultConfig.tEval ∧
      exec .load { staged scenario with inputs := scriptCmd .start ++ scriptIdle 9 } =
        .next (answered .load { staged scenario with inputs := scriptCmd .start ++ scriptIdle 9 }) ∧
      scriptCmd .start ++ scriptIdle 9 = pinsOfWord (encode .start) :: scriptIdle 9 ∧
      quietInputs (scenario.len.toNat + defaultConfig.tEval) (scriptIdle 9) :=
  ⟨by decide, by decide, by decide, by decide, by decide, rfl, rfl, by decide⟩

/-- Two states that agree in the operands only, with passing operands and with failing ones. -/
theorem test_witness_StartForgetsEverythingButOperands :
    loaded.busy = false ∧ (staged scenario).busy = false ∧ loaded.cfg = (staged scenario).cfg ∧
      loaded.ops = (staged scenario).ops ∧ 1 ≤ loaded.cfg.tEval ∧
      quietInputs (loaded.ops.len.toNat + loaded.cfg.tEval) (scriptWaitReads 9) ∧
      quietInputs (loaded.ops.len.toNat + loaded.cfg.tEval) (scriptIdle 9) ∧
      scriptCmd .start ++ scriptIdle 9 = pinsOfWord (encode .start) :: scriptIdle 9 ∧
      checkStart loaded.cfg loaded.ops = none ∧
      checkStart loaded.cfg { scenario with len := 0 } = some ⟨.eLen, 0⟩ := by decide

theorem test_witness_StartEqualsLoadRunEval :
    (staged scenario).busy = false ∧ checkConfig (staged scenario).cfg (staged scenario).ops = none ∧
      1 ≤ (staged scenario).ops.len.toNat ∧ (staged scenario).ops.len.toNat ≤ (staged scenario).cfg.lmax ∧
      1 ≤ (staged scenario).cfg.tEval := by decide

theorem test_witness_StepsEqualOneRun :
    loaded.Inv ∧ loaded.busy = false ∧ loaded.status.loaded = true ∧ 1 ≤ loaded.ops.len.toNat ∧
      loaded.steps.toNat + loaded.ops.len.toNat ≤ loaded.cfg.lmax := ⟨loaded_inv, by decide⟩

theorem test_witness_HostReadsTheExactResults :
    evaluated.Inv ∧ evaluated.busy = false ∧ evaluated.res.resv = true ∧
      readResult evaluated = some ⟨3, 0, 2, 1, some 3841, some true⟩ := ⟨evaluated_inv, by decide⟩

end Sys2Proof.Tests
end

/-! ## Every edge and every instruction answers a next state (00_scope.md R17) -/

section
namespace Sys2Proof.Machine

/-- The dropped and the landed write are both next states (R161). -/
theorem hostWrite_next (f : State → State) (s : State) : ∃ t, hostWrite f s = .next t := by
  cases hb : s.busy
  · exact ⟨_, hostWrite_of_idle f s hb⟩
  · exact ⟨_, hostWrite_of_busy f s hb⟩

/-- The word of every instruction but RD carries the write bit (R80). -/
theorem weField_encode_or_rd (i : Instr) : weField (encode i) = true ∨ ∃ a, i = .rd a := by
  cases i
  case rd a => exact .inr ⟨a, rfl⟩
  all_goals exact .inl (weField_packT39 ..)

theorem exec_next (i : Instr) (s : State) : ∃ t, exec i s = .next t := by
  obtain hw | ⟨a, rfl⟩ := weField_encode_or_rd i
  · rw [exec_write i s hw]
    exact hostWrite_next (landOf i) s
  · exact ⟨_, exec_rd a s⟩

theorem step_next (s : State) : ∃ t, step s = .next t := by
  obtain ⟨-, h⟩ | ⟨-, -, h⟩ | ⟨-, -, -, h⟩ | ⟨-, -, -, -, h⟩ | ⟨-, -, -, -, h⟩ := step_cases s <;>
    exact ⟨_, h⟩

/-- Settles O13: a step by the five cases of `step_cases`, an instruction by whether it is RD or a host write. -/
theorem everyStepAnswersANextState : Obligations.EveryStepAnswersANextState :=
  ⟨step_next, exec_next⟩

end Sys2Proof.Machine
end

/-! ## What a landing write and a micro-step can do (43_commands.md R161 to R172) -/

section
namespace Sys2Proof.Machine

theorem decode_packT39_wf (a : RegNo) (d : Word) : (decode (packT39 true a d)).wf = true := by
  by_cases h : a = cmdNo
  · rw [h, decode_of_command]
    exact decodeCommand_wf d
  · rw [decode_of_write a d h]
    simpa [Instr.wf] using h

/-- The error with which a landing command is rejected, if one of its checks fails (R163 to R169). -/
def rejectionOf (s : State) : Instr → Option Raised
  | .cmdIllegal _ => some ⟨.eCmd, 0⟩
  | .load => checkConfig s.cfg s.ops
  | .start => checkStart s.cfg s.ops
  | .step =>
    if s.status.loaded = false then some ⟨.eState, 0⟩
    else if s.cfg.lmax < s.steps.toNat + 1 then some ⟨.eLen, 0⟩
    else none
  | .run =>
    if s.status.loaded = false then some ⟨.eState, 0⟩
    else if s.cfg.lmax < s.steps.toNat + s.ops.len.toNat then some ⟨.eLen, 0⟩
    else none
  | .nop | .eval | .clear | .wr _ _ | .rd _ => none

/-- A rejection names its cause (60_exceptions.md R190). -/
theorem cause_of_rejection {s : State} {i : Instr} {e : Raised} (h : rejectionOf s i = some e) : e.cause ≠ .none := by
  cases i with
  | load => obtain h | h | h := checkConfig_cause h <;> simp [h]
  | start => obtain h | h | h | h := checkStart_cause h <;> simp [h]
  | cmdIllegal v =>
    obtain rfl : (⟨.eCmd, 0⟩ : Raised) = e := by simpa [rejectionOf] using h
    decide
  | step | run =>
    simp only [rejectionOf] at h
    split_ifs at h <;> cases h <;> decide
  | nop | eval | clear | wr | rd => simp [rejectionOf] at h

/-- What a write that lands on `s` can leave, and when: the error of a rejection, or the effect with the checks it
passed. -/
inductive Lands (s : State) : Instr → State → Prop
  | nop : Lands s .nop s
  | write (a : RegNo) (v : Word) : Lands s (.wr a v) (writeOperand a v s)
  | rejected {i : Instr} {e : Raised} (he : rejectionOf s i = some e) : Lands s i (raiseError e s)
  | load (hc : checkConfig s.cfg s.ops = none) : Lands s .load (loadEffect s)
  | start (hc : checkStart s.cfg s.ops = none) :
      Lands s .start
        { loadEffect s with seq := { (loadEffect s).seq with phase := .run, rem := s.ops.len, chain := true } }
  | step (hl : s.status.loaded = true) (hn : s.steps.toNat + 1 ≤ s.cfg.lmax) :
      Lands s .step (clearError (clearResults (genStep s)))
  | runOfNone (hl : s.status.loaded = true) (hn : s.steps.toNat + s.ops.len.toNat ≤ s.cfg.lmax)
      (h0 : s.ops.len = 0) : Lands s .run (clearError (clearResults s))
  | run (hl : s.status.loaded = true) (hn : s.steps.toNat + s.ops.len.toNat ≤ s.cfg.lmax) (h0 : s.ops.len ≠ 0) :
      Lands s .run
        { clearError (clearResults s) with
          seq := { (clearError (clearResults s)).seq with phase := .run, rem := s.ops.len, chain := false } }
  | eval : Lands s .eval (landEval s)
  | clear : Lands s .clear (landClear s)

theorem landLoad_lands (s : State) : Lands s .load (landLoad s) := by
  unfold landLoad
  split
  · exact .rejected ‹_›
  · exact .load ‹_›

theorem landStart_lands (s : State) : Lands s .start (landStart s) := by
  unfold landStart
  split
  · exact .rejected ‹_›
  · exact .start ‹_›

theorem landStep_lands (s : State) : Lands s .step (landStep s) := by
  unfold landStep
  split_ifs with hl hn
  · exact .rejected (by simp [rejectionOf, hl])
  · exact .rejected (by simp [rejectionOf, hl, hn])
  · exact .step (by simpa using hl) (by omega)

theorem landRun_lands (s : State) : Lands s .run (landRun s) := by
  unfold landRun
  split_ifs with hl hn h0
  · exact .rejected (by simp [rejectionOf, hl])
  · exact .rejected (by simp [rejectionOf, hl, hn])
  · exact .runOfNone (by simpa using hl) (by omega) h0
  · exact .run (by simpa using hl) (by omega) h0

/-- Every write of the table lands in one of these ways (R161). -/
theorem landOf_lands (i : Instr) (s : State) (hw : weField (encode i) = true) (hwf : i.wf = true) :
    Lands s i (landOf i s) := by
  cases i with
  | nop => exact .nop
  | start => exact landStart_lands s
  | load => exact landLoad_lands s
  | step => exact landStep_lands s
  | run => exact landRun_lands s
  | eval => exact .eval
  | clear => exact .clear
  | cmdIllegal v => exact .rejected rfl
  | wr a v =>
    have ha : a ≠ cmdNo := by simpa [Instr.wf] using hwf
    have hland : landOf (.wr a v) s = writeOperand a v s := by simp [landOf, landWrite, ha]
    rw [hland]
    exact .write a v
  | rd a => simp [encode, weField_packT39] at hw

/-- What the host's word does at an edge of the IDLE phase, when it is a write. -/
theorem landOf_decode_lands (a : RegNo) (d : Word) (s : State) :
    Lands s (decode (packT39 true a d)) (landOf (decode (packT39 true a d)) s) :=
  landOf_lands _ s (encode_of_decoded_write a d) (decode_packT39_wf a d)

/-- What a micro-step can do (R172): SV falls in the IDLE phase; one generation step in RUN; in EVAL the countdown, and
at its last edge the results of the evaluation or the error it reports. -/
inductive MicroSteps (s : State) : State → Prop
  | idle (hp : s.seq.phase = .idle) : MicroSteps s (lowerSv s)
  | run (hp : s.seq.phase = .run) :
      MicroSteps s { genStep s with
        seq :=
          if s.seq.rem = 1 then endOfRun s.cfg.tEval { s.seq with rem := s.seq.rem - 1 }
          else { s.seq with rem := s.seq.rem - 1 } }
  | countdown (hp : s.seq.phase = .eval) (hc : 1 < s.seq.ecnt) :
      MicroSteps s { lowerSv s with seq := { s.seq with ecnt := s.seq.ecnt - 1 } }
  | evaluated (hp : s.seq.phase = .eval) (r : Results)
      (hr : evaluate s.cfg s.lfsr1.w.toNat s.lfsr2.w.toNat s.acc.c0.toNat s.acc.c1.toNat = .ok r) :
      MicroSteps s { lowerSv s with
        seq := ⟨.idle, s.seq.rem, 0, false⟩, res := r, status := clearErrorFlags s.status }
  | failed (hp : s.seq.phase = .eval) (e : Raised)
      (he : evaluate s.cfg s.lfsr1.w.toNat s.lfsr2.w.toNat s.acc.c0.toNat s.acc.c1.toNat = .error e) :
      MicroSteps s { lowerSv s with
        seq := ⟨.idle, s.seq.rem, 0, false⟩
        res := Results.zero
        status := raiseErrorFlags e.cause e.einfo s.status }

theorem evalEdge_microSteps (s : State) (hp : s.seq.phase = .eval) : MicroSteps s (evalEdge s) := by
  by_cases hc : 1 < s.seq.ecnt
  · have h : evalEdge s = { lowerSv s with seq := { s.seq with ecnt := s.seq.ecnt - 1 } } := by
      simp [evalEdge, hc]
    rw [h]
    exact .countdown hp hc
  · cases he : evaluate s.cfg s.lfsr1.w.toNat s.lfsr2.w.toNat s.acc.c0.toNat s.acc.c1.toNat with
    | ok r =>
      have h : evalEdge s = { lowerSv s with
          seq := ⟨.idle, s.seq.rem, 0, false⟩, res := r, status := clearErrorFlags s.status } := by
        simp [evalEdge, hc, applyEvaluate, he]
      rw [h]
      exact .evaluated hp r he
    | error e =>
      have h : evalEdge s = { lowerSv s with
          seq := ⟨.idle, s.seq.rem, 0, false⟩
          res := Results.zero
          status := raiseErrorFlags e.cause e.einfo s.status } := by
        simp [evalEdge, hc, applyEvaluate, he]
      rw [h]
      exact .failed hp e he

theorem microStep_microSteps (s : State) : MicroSteps s (microStep s) := by
  cases hp : s.seq.phase with
  | idle => simpa [microStep, hp] using MicroSteps.idle hp
  | run =>
    simp only [microStep, hp]
    exact .run hp
  | eval => simpa [microStep, hp] using evalEdge_microSteps s hp

/-- What an edge can do: reset; a micro-step of a busy block; and in the IDLE phase no write, or a landing one. -/
inductive Edge (s : State) : State → Prop
  | reset (hr : (nextPins s).rst = true) : Edge s (resetEdge s)
  | busy {t : State} (hr : (nextPins s).rst = false) (hb : s.busy = true) (h : MicroSteps (busyStart s) t) : Edge s t
  | quiet (hr : (nextPins s).rst = false) (hb : s.busy = false)
      (hq : ((nextPins s).hValid && (nextPins s).hWe) = false) :
      Edge s { lowerSv (takePins s) with hRdata := hRdataPin s (nextPins s) }
  | write {t : State} {w : T39} (hr : (nextPins s).rst = false) (hb : s.busy = false)
      (hv : (nextPins s).hValid = true) (hw : (nextPins s).hWe = true) (ht : transactionOf (nextPins s) = some w)
      (h : Lands (lowerSv (takePins s)) (decode w) t) : Edge s t

/-- Every step is one of these edges: `step_cases` with the micro-step and the landing write taken apart. -/
theorem step_edge (s : State) : ∃ t, step s = .next t ∧ Edge s t := by
  obtain ⟨hr, h⟩ | ⟨hr, hb, h⟩ | ⟨hr, hb, hv, h⟩ | ⟨hr, hb, hv, hw, h⟩ | ⟨hr, hb, hv, hw, h⟩ := step_cases s
  · exact ⟨_, h, .reset hr⟩
  · exact ⟨_, h, .busy hr hb (microStep_microSteps _)⟩
  · have e : lowerSv (takePins s) = { lowerSv (takePins s) with hRdata := hRdataPin s (nextPins s) } := by
      simp [hRdataPin, hv, lowerSv]
    exact ⟨_, h.trans (congrArg _ e), .quiet hr hb (by simp [hv])⟩
  · have e : readReg s (nextPins s).hAddr = hRdataPin s (nextPins s) := by simp [hRdataPin, hv, hw]
    rw [e] at h
    exact ⟨_, h, .quiet hr hb (by simp [hw])⟩
  · exact ⟨_, h, .write hr hb hv hw (by simp [transactionOf, hv, hw]) (landOf_decode_lands _ _ _)⟩

theorem edge_of_step {s t : State} (h : step s = .next t) : Edge s t := by
  obtain ⟨u, hu, he⟩ := step_edge s
  obtain rfl : u = t := by simpa [h] using hu.symm
  exact he

/-! The frame: a micro-step writes neither the parameters nor the operands nor BUSYWR, and reads no pin (20_memory.md
R69 (e)); a landing write leaves the parameters and the record of read data. -/

theorem MicroSteps.frame {s t : State} (h : MicroSteps s t) :
    t.cfg = s.cfg ∧ t.ops = s.ops ∧ t.hRdata = s.hRdata ∧ t.status.busywr = s.status.busywr := by
  cases h <;> exact ⟨rfl, rfl, rfl, rfl⟩

theorem Lands.frame {s t : State} {i : Instr} (h : Lands s i t) : t.cfg = s.cfg ∧ t.hRdata = s.hRdata := by
  cases h <;> exact ⟨rfl, rfl⟩

end Sys2Proof.Machine
end

/-! ## Every edge keeps the invariant of the block (10_state.md R36 to R57) -/

section
namespace Sys2Proof.Machine

/-! ### The invariant taken apart

The clauses of `State.Inv` speak of two groups of elements: the working registers, the counters and the records, which a
load, a generation step and a reset write; and the sequencer, the report and the results, which commands and the end of a
phase write. -/

/-- The clauses about the sequence as it stands (R36 to R39, R57). -/
def State.DataInv (s : State) : Prop := s.WorkingInv ∧ s.CounterInv ∧ s.RecordInv

theorem inv_iff (s : State) :
    s.Inv ↔ s.cfg.Legal ∧ s.DataInv ∧ s.SequencerInv ∧ s.StatusInv ∧ s.ResultInv :=
  ⟨fun ⟨hcfg, hw, hc, hq, hs, hr, hrec⟩ => ⟨hcfg, ⟨hw, hc, hrec⟩, hq, hs, hr⟩,
    fun ⟨hcfg, ⟨hw, hc, hrec⟩, hq, hs, hr⟩ => ⟨hcfg, hw, hc, hq, hs, hr, hrec⟩⟩

theorem resultInv_of_zero {s : State} (h : s.res = Results.zero) : s.ResultInv := by
  simp [State.ResultInv, h, Results.zero]

/-- A RUN phase shows no results (R53). -/
theorem State.ResultInv.res_of_run {s : State} (h : s.ResultInv) (hp : s.seq.phase = .run) : s.res = Results.zero := by
  obtain ⟨hzero, -, hrun⟩ := h
  exact hzero (hrun hp)

/-- Results are the evaluation of the counters as they stand (R44). -/
theorem resultInv_of_resultsOf {s : State}
    (h : s.res = resultsOf s.cfg s.lfsr1.w.toNat s.lfsr2.w.toNat s.acc.c0.toNat s.acc.c1.toNat)
    (hw : 1 ≤ s.lfsr2.w.toNat) (hm : 1 ≤ s.acc.m.toNat) (hp : s.seq.phase ≠ .run) : s.ResultInv := by
  have hresv : s.res.resv = true := by rw [h]; rfl
  simp only [State.ResultInv, hresv]
  exact ⟨nofun, fun _ => ⟨hw, hm, h⟩, fun hrun => absurd hrun hp⟩

theorem statusInv_of_no_error {s : State} (h : s.status.err = false) (hc : s.status.cause = .none)
    (hi : s.status.einfo = 0) : s.StatusInv := by
  simp [State.StatusInv, h, hc, hi]

theorem statusInv_of_error {s : State} (hb : s.busy = false) (h : s.status.err = true) (hc : s.status.cause ≠ .none) :
    s.StatusInv := by
  simp [State.StatusInv, h, hc, hb]

/-- An idle sequencer holds nothing (R41 to R43). -/
theorem State.SequencerInv.seq_of_idle {s : State} (h : s.SequencerInv) (hp : s.seq.phase = .idle) :
    s.seq = Sequencer.zero := by
  obtain ⟨-, hrem, -, hecnt, hchain⟩ := h
  have hr := hrem (by simp [hp])
  have he := hecnt (by simp [hp])
  have hc := hchain hp
  cases hs : s.seq
  simp_all [Sequencer.zero]

theorem sequencerInv_of_zero {s : State} (h : s.seq = Sequencer.zero) : s.SequencerInv := by
  simp [State.SequencerInv, h, Sequencer.zero]

/-- A RUN phase with steps left, within LMAX, of a loaded block (R41). -/
theorem sequencerInv_of_run {s : State} {r : Word} {c : Bool} (h : s.seq = ⟨.run, r, 0, c⟩) (hr : 1 ≤ r.toNat)
    (hl : s.status.loaded = true) (hn : s.steps.toNat + r.toNat ≤ s.cfg.lmax) : s.SequencerInv := by
  simp [State.SequencerInv, h, hr, hl, hn]

/-- An EVAL phase with edges left (R42). -/
theorem sequencerInv_of_eval {s : State} {n : Nat} {c : Bool} (h : s.seq = ⟨.eval, 0, n, c⟩) (h1 : 1 ≤ n)
    (hn : n ≤ s.cfg.tEval) : s.SequencerInv := by
  simp [State.SequencerInv, h, h1, hn]

theorem State.SequencerInv.rem_of_eval {s : State} (h : s.SequencerInv) (hp : s.seq.phase = .eval) :
    s.seq.rem = 0 := by
  obtain ⟨-, hrem, -⟩ := h
  exact hrem (by simp [hp])

theorem State.SequencerInv.ecnt_of_eval {s : State} (h : s.SequencerInv) (hp : s.seq.phase = .eval) :
    1 ≤ s.seq.ecnt ∧ s.seq.ecnt ≤ s.cfg.tEval := by
  obtain ⟨-, -, hecnt, -⟩ := h
  exact hecnt hp

/-! ### What each event does to the sequence -/

theorem dataInv_resetBlock (s : State) : (resetBlock s).DataInv := by
  simp [State.DataInv, State.WorkingInv, State.CounterInv, State.RecordInv, Engine.Fits, Engine.zero, Accumulator.zero,
    LastOut.zero, Records.empty, Status.zero, combine]

theorem dataInv_lowerSv {s : State} (h : s.DataInv) : (lowerSv s).DataInv := by
  obtain ⟨hw, hc, hd, hcs, ho, h0, h1, hld, hlc, hlv, -⟩ := h
  exact ⟨hw, hc, hd, hcs, ho, h0, h1, hld, hlc, hlv, fun hf => absurd hf Bool.false_ne_true⟩

/-- R36 is kept by a step of both engines, which only a loaded block makes. -/
theorem workingInv_genStep {s : State} (h : s.WorkingInv) (hl : s.status.loaded = true) : (genStep s).WorkingInv := by
  obtain ⟨h1, h2, hw, -⟩ := h
  exact ⟨h1.engineStep, h2.engineStep, hw, fun hf => absurd (hl.symm.trans hf) (by decide)⟩

/-- The counters after a generation step, as numbers: none wraps (R130). -/
theorem genStep_counters {s : State} (h : s.CounterInv) (hn : s.steps.toNat < 2 ^ 32 - 1) :
    (genStep s).steps.toNat = s.steps.toNat + 1 ∧
    (genStep s).acc.m.toNat = s.acc.m.toNat + (engineOut s.lfsr2).toNat ∧
    (genStep s).acc.c0.toNat = s.acc.c0.toNat + (engineOut s.lfsr2 && !engineOut s.lfsr1).toNat ∧
    (genStep s).acc.c1.toNat = s.acc.c1.toNat + (engineOut s.lfsr2 && engineOut s.lfsr1).toNat := by
  obtain ⟨hm, hms, -⟩ := h
  have hsucc : ∀ x : Word, x.toNat ≤ s.steps.toNat → (x + 1#32).toNat = x.toNat + 1 :=
    fun x hx => toNat_succ x (by omega)
  refine ⟨hsucc _ le_rfl, ?_⟩
  have hm' := hsucc s.acc.m hms
  have h0' := hsucc s.acc.c0 (by omega)
  have h1' := hsucc s.acc.c1 (by omega)
  cases hc : engineOut s.lfsr2 <;> cases hd : engineOut s.lfsr1 <;>
    simp [accumulate, hc, hd, hm', h0', h1', -BitVec.toNat_add]

theorem counterInv_genStep {s : State} (h : s.CounterInv) (hn : s.steps.toNat < 2 ^ 32 - 1)
    (hl : s.steps.toNat < s.cfg.lmax) : (genStep s).CounterInv := by
  obtain ⟨hsteps, hm, h0, h1⟩ := genStep_counters h hn
  obtain ⟨hsum, hle, -⟩ := h
  have hkept : (engineOut s.lfsr2).toNat =
      (engineOut s.lfsr2 && !engineOut s.lfsr1).toNat + (engineOut s.lfsr2 && engineOut s.lfsr1).toNat := by
    cases engineOut s.lfsr2 <;> cases engineOut s.lfsr1 <;> rfl
  have hone := Bool.toNat_le (engineOut s.lfsr2)
  refine ⟨by omega, by omega, ?_⟩
  rw [hsteps, genStep_cfg]
  omega

/-- The records grow by the pair and by the bit kept of it (R57, R122, R131). -/
theorem recordInv_genStep {s : State} (h : s.RecordInv) (hc : s.CounterInv) (hn : s.steps.toNat < 2 ^ 32 - 1) :
    (genStep s).RecordInv := by
  obtain ⟨hsteps, -, h0, h1⟩ := genStep_counters hc hn
  obtain ⟨hd, hcs, ho, hc0, hc1, -⟩ := h
  have hout : (genStep s).recs.outseq =
      s.recs.outseq ++ (if engineOut s.lfsr2 then [engineOut s.lfsr1] else []) := by
    cases hk : engineOut s.lfsr2 <;> simp [hk]
  have hne : (genStep s).steps ≠ 0 := by
    intro hz
    rw [hz] at hsteps
    simp at hsteps
  refine ⟨?_, ?_, ?_, ?_, ?_, by simp, by simp, iff_of_true rfl hne, fun _ => rfl⟩
  · rw [hsteps, genStep_dseq, List.length_append, hd, List.length_singleton]
  · rw [hsteps, genStep_cseq, List.length_append, hcs, List.length_singleton]
  · rw [hout, ho, genStep_dseq, genStep_cseq, combine_concat _ _ _ _ (hd.trans hcs.symm)]
  · rw [h0, hout, hc0]
    cases engineOut s.lfsr2 <;> cases engineOut s.lfsr1 <;> simp
  · rw [h1, hout, hc1]
    cases engineOut s.lfsr2 <;> cases engineOut s.lfsr1 <;> simp

theorem dataInv_genStep {s : State} (h : s.DataInv) (hcfg : s.cfg.Legal) (hl : s.status.loaded = true)
    (hn : s.steps.toNat < s.cfg.lmax) : (genStep s).DataInv := by
  obtain ⟨-, ⟨-, hlmax⟩, -⟩ := hcfg
  obtain ⟨hw, hc, hr⟩ := h
  have hwrap : s.steps.toNat < 2 ^ 32 - 1 := by omega
  exact ⟨workingInv_genStep hw hl, counterInv_genStep hc hwrap hn, recordInv_genStep hr hc hwrap⟩

/-- A load that passed its check begins a sequence (R165). -/
theorem dataInv_loadEffect {s : State} (hcfg : s.cfg.Legal) (hc : checkConfig s.cfg s.ops = none) :
    (loadEffect s).DataInv := by
  obtain ⟨⟨-, hw⟩, -⟩ := hcfg
  obtain ⟨⟨hbad1, hbad2⟩, ⟨hdif1, hdif2⟩, hstr1, hstr2⟩ := checkConfig_none hc
  obtain ⟨he1, hw1, hlo1, hhi1, hr1, ht1⟩ := loadedEngine_of_checked hw hbad1 hdif1 hstr1
  obtain ⟨he2, hw2, hlo2, hhi2, hr2, ht2⟩ := loadedEngine_of_checked hw hbad2 hdif2 hstr2
  refine ⟨⟨?_, ?_, ?_, ?_⟩, ?_, ?_⟩
  · simp [Engine.Fits, he1, hw1, hhi1, hr1, ht1, -BitVec.toNat_setWidth]
  · simp [Engine.Fits, he2, hw2, hhi2, hr2, ht2, -BitVec.toNat_setWidth]
  · simp [he1, he2, hw1, hw2, hlo1, hlo2, -BitVec.toNat_setWidth]
  · simp
  · simp [State.CounterInv, Accumulator.zero]
  · simp [State.RecordInv, Records.empty, Accumulator.zero, LastOut.zero, combine]

/-! ### Every edge -/

theorem one_le_toNat {x : Word} (h : x ≠ 0) : 1 ≤ x.toNat :=
  Nat.one_le_iff_ne_zero.2 fun h0 => h (BitVec.eq_of_toNat_eq h0)

theorem inv_lowerSv {s : State} (h : s.Inv) : (lowerSv s).Inv := by
  rw [inv_iff] at h ⊢
  obtain ⟨hcfg, hd, hrest⟩ := h
  exact ⟨hcfg, dataInv_lowerSv hd, hrest⟩

/-- After an edge of a RUN phase: steps left, or the EVAL phase of a START, or the IDLE phase (R172). -/
theorem sequencerInv_runEdge {s : State} (hcfg : s.cfg.Legal) (hq : s.SequencerInv) (hp : s.seq.phase = .run)
    (hsteps : (genStep s).steps.toNat = s.steps.toNat + 1) : (runEdge s).SequencerInv := by
  obtain ⟨-, -, hteval, -⟩ := hcfg
  obtain ⟨hrun, -, -, hecnt, -⟩ := hq
  obtain ⟨hrem, hlen, hl⟩ := hrun hp
  have he : s.seq.ecnt = 0 := hecnt (by simp [hp])
  by_cases h1 : s.seq.rem = 1
  · have hseq : (runEdge s).seq = endOfRun s.cfg.tEval { s.seq with rem := s.seq.rem - 1 } := if_pos h1
    cases hc : s.seq.chain
    · exact sequencerInv_of_zero (by simp [hseq, endOfRun, hc, h1, he, Sequencer.zero])
    · exact sequencerInv_of_eval (c := true) (by simp [hseq, endOfRun, hc, h1]) hteval le_rfl
  · have hseq : (runEdge s).seq = { s.seq with rem := s.seq.rem - 1 } := if_neg h1
    have hpred := toNat_pred s.seq.rem hrem
    have hne : s.seq.rem.toNat ≠ 1 := fun h => h1 (BitVec.eq_of_toNat_eq h)
    have hlen' : (genStep s).steps.toNat + (s.seq.rem - 1).toNat ≤ s.cfg.lmax := by omega
    exact sequencerInv_of_run (c := s.seq.chain) (by simp [hseq, hp, he]) (by omega) hl hlen'

theorem inv_runEdge {s : State} (hi : s.Inv) (hp : s.seq.phase = .run) : (runEdge s).Inv := by
  obtain ⟨hcfg, hd, hq, hs, hr⟩ := (inv_iff s).1 hi
  obtain ⟨hrem, hlen, hl⟩ := hq.1 hp
  have hsteps : (genStep s).steps.toNat = s.steps.toNat + 1 := by
    obtain ⟨-, ⟨-, hlmax⟩, -, -⟩ := hcfg
    obtain ⟨-, hcount, -⟩ := hd
    exact (genStep_counters hcount (by omega)).1
  have hstatus : (runEdge s).StatusInv := by
    obtain ⟨hnone, hsome, hbusy⟩ := hs
    exact ⟨hnone, hsome, fun _ => hbusy ((busy_eq_true_iff s).2 (by simp [hp]))⟩
  exact (inv_iff _).2 ⟨hcfg, dataInv_genStep hd hcfg hl (by omega), sequencerInv_runEdge hcfg hq hp hsteps, hstatus,
    resultInv_of_zero (hr.res_of_run hp)⟩

/-- A micro-step keeps the invariant. -/
theorem MicroSteps.inv {s t : State} (h : MicroSteps s t) (hi : s.Inv) : t.Inv := by
  obtain ⟨hcfg, hd, hq, hs, hr⟩ := (inv_iff s).1 hi
  have hdata : (lowerSv s).DataInv := dataInv_lowerSv hd
  cases h with
  | idle hp => exact inv_lowerSv hi
  | run hp => exact inv_runEdge hi hp
  | countdown hp hc =>
    obtain ⟨-, hle⟩ := hq.ecnt_of_eval hp
    have hseq : { s.seq with ecnt := s.seq.ecnt - 1 } = (⟨.eval, 0, s.seq.ecnt - 1, s.seq.chain⟩ : Sequencer) := by
      simp [hp, hq.rem_of_eval hp]
    exact (inv_iff _).2 ⟨hcfg, hdata,
      sequencerInv_of_eval hseq (by omega) (show s.seq.ecnt - 1 ≤ s.cfg.tEval by omega), hs, hr⟩
  | evaluated hp r hok =>
    obtain ⟨hw2, hsum, hres⟩ := evaluate_ok hok
    obtain ⟨-, ⟨hm, -, -⟩, -⟩ := hd
    refine (inv_iff _).2 ⟨hcfg, hdata, sequencerInv_of_zero (by simp [hq.rem_of_eval hp, Sequencer.zero]),
      statusInv_of_no_error rfl rfl rfl, ?_⟩
    exact resultInv_of_resultsOf hres hw2 (hm.symm ▸ hsum) nofun
  | failed hp e he =>
    have hcause : e.cause ≠ .none := by obtain h | h := evaluate_error_cause he <;> simp [h]
    exact (inv_iff _).2 ⟨hcfg, hdata,
      sequencerInv_of_zero (by simp [hq.rem_of_eval hp, Sequencer.zero]),
      statusInv_of_error rfl rfl hcause, resultInv_of_zero rfl⟩

/-- Reset and CLEAR leave a sound block (R58, R171). -/
theorem inv_of_reset_elements {s : State} (hcfg : s.cfg.Legal) (o : OperandRegs) (ins : List PinSample) (d : Word) :
    State.Inv { resetBlock s with ops := o, inputs := ins, hRdata := d } :=
  (inv_iff _).2 ⟨hcfg, dataInv_resetBlock s, sequencerInv_of_zero rfl,
    statusInv_of_no_error rfl rfl rfl, resultInv_of_zero rfl⟩

/-- A write that lands in the IDLE phase keeps the invariant, whatever its checks say. -/
theorem Lands.inv {s t : State} {i : Instr} (h : Lands s i t) (hi : s.Inv) (hb : s.busy = false) : t.Inv := by
  obtain ⟨hcfg, hd, hq, hs, hr⟩ := (inv_iff s).1 hi
  have hseq : s.seq = Sequencer.zero := hq.seq_of_idle ((busy_eq_false_iff s).1 hb)
  cases h with
  | nop => exact hi
  | write a v => exact hi
  | rejected he => exact (inv_iff _).2 ⟨hcfg, hd, hq, statusInv_of_error hb rfl (cause_of_rejection he), hr⟩
  | load hc =>
    exact (inv_iff _).2 ⟨hcfg, dataInv_loadEffect hcfg hc, sequencerInv_of_zero hseq,
      statusInv_of_no_error rfl rfl rfl, resultInv_of_zero rfl⟩
  | start hc =>
    obtain ⟨hc, h0, hlen⟩ := checkStart_none hc
    refine (inv_iff _).2 ⟨hcfg, dataInv_loadEffect hcfg hc, ?_,
      statusInv_of_no_error rfl rfl rfl, resultInv_of_zero rfl⟩
    exact sequencerInv_of_run (r := s.ops.len) (c := true) (by simp [hseq, Sequencer.zero])
      (one_le_toNat h0) rfl (by simpa using hlen)
  | step hl hn =>
    exact (inv_iff _).2 ⟨hcfg, dataInv_genStep hd hcfg hl hn, sequencerInv_of_zero hseq,
      statusInv_of_no_error rfl rfl rfl, resultInv_of_zero rfl⟩
  | runOfNone hl hn h0 =>
    exact (inv_iff _).2 ⟨hcfg, hd, sequencerInv_of_zero hseq,
      statusInv_of_no_error rfl rfl rfl, resultInv_of_zero rfl⟩
  | run hl hn h0 =>
    refine (inv_iff _).2 ⟨hcfg, hd, ?_, statusInv_of_no_error rfl rfl rfl, resultInv_of_zero rfl⟩
    exact sequencerInv_of_run (r := s.ops.len) (c := false) (by simp [hseq, Sequencer.zero])
      (one_le_toNat h0) hl hn
  | eval =>
    obtain ⟨-, -, hteval, -⟩ := hcfg
    obtain ⟨hzero, hresults, -⟩ := hr
    refine (inv_iff _).2 ⟨hi.1, hd, ?_, statusInv_of_no_error rfl rfl rfl, hzero, hresults, nofun⟩
    exact sequencerInv_of_eval (n := s.cfg.tEval) (c := false) (by simp [hseq, Sequencer.zero]) hteval le_rfl
  | clear => exact inv_of_reset_elements hcfg _ _ _

/-- Settles O48, by the cases of an edge: `MicroSteps.inv` while busy, `Lands.inv` for a landing write. -/
theorem everyEdgeKeepsTheBlockSound : Obligations.EveryEdgeKeepsTheBlockSound := by
  intro s t hi ht
  cases edge_of_step ht with
  | reset hr => exact inv_of_reset_elements hi.1 _ _ _
  | busy hr hb h => exact h.inv hi
  | quiet hr hb hq => exact inv_lowerSv (s := takePins s) hi
  | write hr hb hv hw ht h => exact h.inv (inv_lowerSv (s := takePins s) hi) hb

/-- Settles O47: the reset state is what a reset leaves of a block with the default parameters, which are legal. -/
theorem resetStateIsSound : Obligations.ResetStateIsSound :=
  inv_of_reset_elements (s := State.reset) (by decide) _ _ _

end Sys2Proof.Machine
end

/-! ## What the registers read, and which of them a write reaches (10_state.md R20 to R58) -/

section
namespace Sys2Proof.Machine

/-- The registers that show the parameters and read the same for ever (R24 to R26, R55). -/
def RegName.isConstant : RegName → Bool
  | .id | .cap | .lmaxr | .critrom _ => true
  | _ => false

theorem isConstant_regName : ∀ a : RegNo, (regName a).isConstant = decide (a.toNat ≤ 2 ∨ 0x30 ≤ a.toNat) := by
  decide

theorem readName_of_isConstant {n : RegName} (hn : n.isConstant = true) {s t : State} (hc : t.cfg = s.cfg) :
    readName t n = readName s n := by
  cases n <;> simp [RegName.isConstant] at hn <;> simp [readName, hc]

theorem readName_reset {n : RegName} (hn : n.isConstant = false) : readName State.reset n = 0 := by
  cases n <;> simp [RegName.isConstant] at hn <;> decide

theorem readName_resetEdge {n : RegName} (hn : n.isConstant = false) (s : State) : readName (resetEdge s) n = 0 := by
  rw [← readName_reset hn]
  cases n <;> simp [RegName.isConstant] at hn <;> rfl

/-- Settles O11: each number names a constant register, which reads the parameters, or one that reads 0 at reset. -/
theorem registersReadZeroAfterReset : Obligations.RegistersReadZeroAfterReset := by
  intro s hr
  refine ⟨_, step_of_rst s hr, fun a => ?_⟩
  have ha := isConstant_regName a
  split_ifs with hc
  · exact readName_of_isConstant (by simpa [hc] using ha) rfl
  · exact readName_resetEdge (by simpa [hc] using ha) s

/-- The names of the nine RW registers (R20). -/
def rwNames : List RegName := [.len, .p1, .p1len, .s1, .s1len, .p2, .p2len, .s2, .s2len]

theorem regName_mem_rwNames : ∀ a : RegNo, regName a ∈ rwNames ↔ a ∈ rwNumbers := by decide

/-- Outside the nine RW registers a write leaves the operand group (R21). -/
theorem writeName_of_not_mem {n : RegName} (hn : n ∉ rwNames) (v : Word) (o : OperandRegs) : writeName v o n = o := by
  cases n <;> simp [rwNames] at hn <;> rfl

theorem writeOperand_of_not_rw {a : RegNo} (ha : a ∉ rwNumbers) (v : Word) (s : State) : writeOperand a v s = s := by
  rw [writeOperand, writeName_of_not_mem (mt (regName_mem_rwNames a).1 ha)]

/-- A landed write to a register that is neither CMD nor RW is ignored (R21, R161). -/
theorem exec_wr_ignored {a : RegNo} (hcmd : a ≠ cmdNo) (ha : a ∉ rwNumbers) (v : Word) {s : State}
    (hb : s.busy = false) : exec (.wr a v) s = .next s.settled := by
  have h : exec (.wr a v) s = hostWrite (landWrite a v) s := rfl
  rw [h, hostWrite_of_idle _ _ hb, landWrite, if_neg hcmd, writeOperand_of_not_rw ha, lowerSv]

/-- Of the landing writes only WR of an RW register writes the operands (R22). -/
theorem Lands.ops {s t : State} {i : Instr} (h : Lands s i t) (hne : t.ops ≠ s.ops) :
    ∃ a v, i = .wr a v ∧ a ∈ rwNumbers := by
  cases h with
  | write a v =>
    refine ⟨a, v, rfl, ?_⟩
    by_contra ha
    exact hne (congrArg State.ops (writeOperand_of_not_rw ha v s))
  | _ => exact absurd rfl hne

/-- Settles O22: a reserved number names no register and is neither CMD nor RW. -/
theorem reservedNumbersAreInert : Obligations.ReservedNumbersAreInert := by
  intro s a ha
  have hres : ∀ a ∈ reservedNumbers, regName a = .reserved ∧ a ≠ cmdNo ∧ a ∉ rwNumbers := by decide
  obtain ⟨hname, hcmd, hrw⟩ := hres a ha
  exact ⟨by rw [readReg, hname, readName], fun v hb => exec_wr_ignored hcmd hrw v hb⟩

/-! The fields of the words assembled from state elements (R25, R28, R39, R52). -/

/-- A field of a word is read off its bits. -/
theorem extractLsb'_eq {v : Word} {start k : Nat} {f : BitVec k}
    (h : ∀ i < k, v.getLsbD (start + i) = f.getLsbD i) : v.extractLsb' start k = f := by
  apply BitVec.eq_of_getLsbD_eq
  intro i hi
  simpa [hi] using h i hi

theorem getLsbD_statusWord (s : State) (i : Nat) :
    (statusWord s).getLsbD i =
      if i < 1 then s.busy else if i < 2 then s.status.loaded else if i < 3 then s.res.resv
      else if i < 4 then s.status.err else if i < 8 then (causeCode s.status.cause).getLsbD (i - 4)
      else if i < 10 then s.status.einfo.getLsbD (i - 8) else if i < 11 then s.status.busywr
      else if i < 13 then (phaseCode s.seq.phase).getLsbD (i - 11) else decide (i < 14) && s.seq.chain := by
  have h : (statusWord s).getLsbD i =
      (0#18 ++ BitVec.ofBool s.seq.chain ++ phaseCode s.seq.phase ++ BitVec.ofBool s.status.busywr ++
        s.status.einfo ++ causeCode s.status.cause ++ BitVec.ofBool s.status.err ++ BitVec.ofBool s.res.resv ++
        BitVec.ofBool s.status.loaded ++ BitVec.ofBool s.busy
        : BitVec (18 + 1 + 2 + 1 + 2 + 4 + 1 + 1 + 1 + 1)).getLsbD i := rfl
  simp only [h, BitVec.getLsbD_append, BitVec.getLsbD_ofBool]
  by_cases hi : i < 14
  · interval_cases i <;> simp
  · simp (disch := omega) only [if_neg]
    simp [hi]

theorem getLsbD_lastOutWord (l : LastOut) (i : Nat) :
    (lastOutWord l).getLsbD i =
      if i < 1 then l.ld else if i < 2 then l.lc else if i < 3 then l.lv else decide (i < 4) && l.sv := by
  have h : (lastOutWord l).getLsbD i =
      (0#28 ++ BitVec.ofBool l.sv ++ BitVec.ofBool l.lv ++ BitVec.ofBool l.lc ++ BitVec.ofBool l.ld
        : BitVec (28 + 1 + 1 + 1 + 1)).getLsbD i := rfl
  simp only [h, BitVec.getLsbD_append, BitVec.getLsbD_ofBool]
  by_cases hi : i < 4
  · interval_cases i <;> simp
  · simp (disch := omega) only [if_neg]
    simp [hi]

theorem getLsbD_resultWord (r : Results) (i : Nat) :
    (resultWord r).getLsbD i = if i < 1 then r.uniform else decide (i < 2) && r.undef := by
  have h : (resultWord r).getLsbD i =
      (0#30 ++ BitVec.ofBool r.undef ++ BitVec.ofBool r.uniform : BitVec (30 + 1 + 1)).getLsbD i := rfl
  simp only [h, BitVec.getLsbD_append, BitVec.getLsbD_ofBool]
  by_cases hi : i < 2
  · interval_cases i <;> simp
  · simp (disch := omega) only [if_neg]
    simp [hi]

theorem getLsbD_capWord (cfg : Config) (i : Nat) :
    (capWord cfg).getLsbD i =
      if i < 6 then (BitVec.ofNat 6 cfg.wmax).getLsbD i else if i < 8 then false
      else if i < 13 then (16#5).getLsbD (i - 8) else if i < 16 then false
      else (BitVec.ofNat 16 critScale).getLsbD (i - 16) := by
  have h : (capWord cfg).getLsbD i =
      (BitVec.ofNat 16 critScale ++ 0#3 ++ 16#5 ++ 0#2 ++ BitVec.ofNat 6 cfg.wmax
        : BitVec (16 + 3 + 5 + 2 + 6)).getLsbD i := rfl
  simp only [h, BitVec.getLsbD_append]
  by_cases hi : i < 16
  · interval_cases i <;> simp
  · simp (disch := omega) only [if_neg]
    congr 1

/-- Settles O19: the bits of STATUS by `getLsbD_statusWord`; its number is neither CMD nor RW. -/
theorem statusWordFields : Obligations.StatusWordFields := by
  intro s
  have hread : readReg s 0x04 = statusWord s := rfl
  have hbusy : s.busy = decide (s.seq.phase ≠ .idle) :=
    Bool.eq_iff_iff.2 ((busy_eq_true_iff s).trans decide_eq_true_iff.symm)
  have field {start k : Nat} {f : BitVec k} (h : ∀ i < k, (statusWord s).getLsbD (start + i) = f.getLsbD i) :
      (readReg s 0x04).extractLsb' start k = f := extractLsb'_eq h
  have hcause : (readReg s 0x04).extractLsb' 4 4 = causeCode s.status.cause :=
    field fun i hi => by simp (disch := omega) only [getLsbD_statusWord, if_neg, if_pos, Nat.add_sub_cancel_left]
  have heinfo : (readReg s 0x04).extractLsb' 8 2 = s.status.einfo :=
    field fun i hi => by simp (disch := omega) only [getLsbD_statusWord, if_neg, if_pos, Nat.add_sub_cancel_left]
  have hphase : (readReg s 0x04).extractLsb' 11 2 = phaseCode s.seq.phase :=
    field fun i hi => by simp (disch := omega) only [getLsbD_statusWord, if_neg, if_pos, Nat.add_sub_cancel_left]
  have hunused : (readReg s 0x04).extractLsb' 14 18 = 0 :=
    field fun i hi => by simp (disch := omega) only [getLsbD_statusWord, if_neg]; simp
  refine ⟨?_, ?_, ?_, ?_, ?_, heinfo, ?_, ?_, ?_, hunused, fun v hb => exec_wr_ignored (by decide) (by decide) v hb⟩
  case refine_5 =>
    rw [hcause]
    cases s.status.cause <;> rfl
  case refine_7 =>
    rw [hphase]
    cases s.seq.phase <;> rfl
  all_goals simp only [hread, getLsbD_statusWord, hbusy]; simp

/-- Settles O21: the fields of CAP by `getLsbD_capWord`; the legal parameters fit their fields. -/
theorem constantRegisters : Obligations.ConstantRegisters := by
  intro s hlegal
  obtain ⟨⟨-, hw⟩, ⟨-, hl⟩, -, -⟩ := hlegal
  have field {start k : Nat} {f : BitVec k} (h : ∀ i < k, (capWord s.cfg).getLsbD (start + i) = f.getLsbD i) :
      (readReg s 0x01).extractLsb' start k = f := extractLsb'_eq h
  have hwmax : (readReg s 0x01).extractLsb' 0 6 = BitVec.ofNat 6 s.cfg.wmax :=
    field fun i hi => by simp (disch := omega) only [getLsbD_capWord, if_pos, Nat.zero_add]
  have hlmax : readReg s 0x02 = BitVec.ofNat 32 s.cfg.lmax := rfl
  refine ⟨rfl, ?_, ?_, ?_, ?_, ?_, ?_, ?_, ?_⟩
  · rw [hwmax, BitVec.toNat_ofNat]
    omega
  · exact field fun i hi => by simp (disch := omega) only [getLsbD_capWord, if_neg, if_pos]; simp
  · exact field fun i hi => by
      simp (disch := omega) only [getLsbD_capWord, if_neg, if_pos, Nat.add_sub_cancel_left]; rfl
  · exact field fun i hi => by simp (disch := omega) only [getLsbD_capWord, if_neg, if_pos]; simp
  · exact field fun i hi => by simp (disch := omega) only [getLsbD_capWord, if_neg, Nat.add_sub_cancel_left]; rfl
  · intro hc
    exact ⟨(congrArg capWord hc).trans (by decide), by rw [hlmax, hc]; decide⟩
  · rw [hlmax, BitVec.toNat_ofNat]
    omega
  · have hro : ∀ a : RegNo, a.toNat ≤ 2 → a ≠ cmdNo ∧ a ∉ rwNumbers := by decide
    intro a v ha hb
    exact exec_wr_ignored (hro a ha).1 (hro a ha).2 v hb

/-- The two registers of a 64-bit result put together (20_memory.md R63). -/
theorem highWord_append_lowWord (v : BitVec 64) : highWord v ++ lowWord v = v :=
  BitVec.extractLsb'_append_extractLsb'_eq_extractLsb' (by rfl) |>.trans (by simp)

/-- A zero-extended element: its own bits, and zeros above (20_memory.md R62). -/
theorem extractLsb'_setWidth {k : Nat} (v : BitVec k) (h : k ≤ 32) :
    (v.setWidth 32).extractLsb' 0 k = v ∧ (v.setWidth 32).extractLsb' k (32 - k) = 0 := by
  constructor
  · refine extractLsb'_eq fun i hi => ?_
    have hlt : i < 32 := by omega
    simp [hlt]
  · refine extractLsb'_eq fun i hi => ?_
    simp

/-- Settles O20: whole registers by computation, LASTOUT and RESULT by their bits, the rest by its width. -/
theorem lastOutAndResultFields : Obligations.LastOutAndResultFields := by
  intro s
  have hlast : readReg s 0x1A = lastOutWord s.last := rfl
  have hres : readReg s 0x2A = resultWord s.res := rfl
  have hlast0 : (lastOutWord s.last).extractLsb' 4 28 = 0 :=
    extractLsb'_eq fun i hi => by simp (disch := omega) only [getLsbD_lastOutWord, if_neg]; simp
  have hres0 : (resultWord s.res).extractLsb' 2 30 = 0 :=
    extractLsb'_eq fun i hi => by
      simp (disch := omega) only [getLsbD_resultWord, if_neg, decide_eq_false, Bool.false_and]
      simp
  obtain ⟨hw1f, hw1z⟩ := extractLsb'_setWidth s.lfsr1.w (by decide)
  obtain ⟨hw2f, hw2z⟩ := extractLsb'_setWidth s.lfsr2.w (by decide)
  refine ⟨⟨rfl, rfl, rfl, rfl, rfl, rfl, rfl, rfl, rfl⟩,
    ⟨rfl, rfl, hw1f, hw1z, rfl, rfl, hw2f, hw2z, rfl, rfl, rfl, rfl, rfl⟩,
    ⟨rfl, BitVec.toNat_setWidth_of_le (by decide), BitVec.toNat_setWidth_of_le (by decide), rfl⟩,
    ⟨?_, ?_, ?_, ?_, hlast0⟩, ⟨?_, ?_, hres0⟩,
    highWord_append_lowWord _, highWord_append_lowWord _, highWord_append_lowWord _⟩
  all_goals simp only [hlast, hres, getLsbD_lastOutWord, getLsbD_resultWord]; simp

end Sys2Proof.Machine
end

/-! ## What an edge does to the elements a host sees (10_state.md R22, R46, R55 to R57) -/

section
namespace Sys2Proof.Machine

/-- Settles O12: the read data of a busy edge is recorded before its micro-step; a write presents no read. -/
theorem readDataIsTheRegisterBeforeTheEdge : Obligations.ReadDataIsTheRegisterBeforeTheEdge := by
  intro s
  obtain ⟨t, ht, he⟩ := step_edge s
  refine ⟨t, ht, ?_⟩
  have hpin : t.hRdata = hRdataPin s (nextPins s) := by
    cases he with
    | reset hr => rfl
    | busy hr hb h =>
      obtain ⟨-, -, hread, -⟩ := h.frame
      exact hread
    | quiet hr hb hq => rfl
    | write hr hb hv hw ht h =>
      rw [h.frame.2]
      simp [hRdataPin, hw]
  simp [hpin, hRdataPin]

/-- Of the landing writes only CLEAR writes BUSYWR (R46). -/
theorem Lands.busywr {s t : State} {i : Instr} (h : Lands s i t) :
    t.status.busywr = true ↔ s.status.busywr = true ∧ i ≠ .clear := by
  cases h with
  | clear => simp [Status.zero]
  | rejected he =>
    have hi : i ≠ .clear := by rintro rfl; cases he
    simp [hi]
  | _ => simp

/-- A cycle that presents no write carries no transaction or a read. -/
theorem decode_of_no_write {p : PinSample} {w : T39} (hq : (p.hValid && p.hWe) = false)
    (hw : transactionOf p = some w) : decode w = .rd p.hAddr := by
  unfold transactionOf at hw
  split_ifs at hw with hv
  obtain rfl : packT39 p.hWe p.hAddr p.hWdata = w := by simpa using hw
  have hwe : p.hWe = false := by simpa [hv] using hq
  rw [hwe, decode_of_read]

/-- Settles O18: a busy edge records the write before its micro-step, which leaves BUSYWR; in the IDLE phase only CLEAR
writes it. -/
theorem busywrIsStickyUntilClear : Obligations.BusywrIsStickyUntilClear := by
  intro s
  obtain ⟨t, ht, he⟩ := step_edge s
  refine ⟨t, ht, ?_⟩
  cases he with
  | reset hr => simp [hr, Status.zero]
  | busy hr hb h =>
    obtain ⟨-, -, -, hbw⟩ := h.frame
    rw [hbw]
    simp [busyStart, hr, hb, or_comm]
  | quiet hr hb hq =>
    have hclear : ¬∃ w, transactionOf (nextPins s) = some w ∧ decode w = .clear := by
      rintro ⟨w, hw, hd⟩
      simp [decode_of_no_write hq hw] at hd
    simp only [hb, hr, hclear]
    simp
  | write hr hb hv hw ht h =>
    simp [h.busywr, hr, hb, ht]

/-- Settles O23: the sixteen numbers by enumeration; the parameters by the frame of an edge. -/
theorem critRomIsMirroredAndConstant : Obligations.CritRomIsMirroredAndConstant := by
  constructor
  · intro s k
    have hname : ∀ k : Fin 16, regName (BitVec.ofNat 6 (0x30 + k.val)) = .critrom (k.val + 1) := by decide
    have hk : 1 ≤ k.val + 1 ∧ k.val + 1 ≤ 16 := by omega
    simp [readReg, hname, readName, critRom, hk]
  · intro s
    obtain ⟨t, ht, he⟩ := step_edge s
    refine ⟨t, ht, ?_⟩
    cases he with
    | reset hr => rfl
    | busy hr hb h => exact h.frame.1
    | quiet hr hb hq => rfl
    | write hr hb hv hw ht h => exact h.frame.1

/-- Settles O24: no micro-step writes the operands, and of the landing writes only WR of an RW register. -/
theorem operandsChangeOnlyByLandedWrite : Obligations.OperandsChangeOnlyByLandedWrite := by
  intro s
  obtain ⟨t, ht, he⟩ := step_edge s
  refine ⟨t, ht, fun hne => ?_⟩
  cases he with
  | reset hr => exact .inl hr
  | busy hr hb h =>
    obtain ⟨-, hops, -⟩ := h.frame
    exact absurd hops hne
  | quiet hr hb hq => exact absurd rfl hne
  | write hr hb hv hw ht h =>
    obtain ⟨a, v, hi, ha⟩ := h.ops hne
    exact .inr ⟨hb, _, a, v, ht, hi, ha⟩

/-! The stream port (R56): the bit it shows is the one the edge appended to OUTSEQ. -/

/-- What the stream port shows of a state: the bit kept at the latest edge, if any. -/
def shownBits (s : State) : List Bool := if outValidPin s then [outBitPin s] else []

theorem genStep_outseq_shown (s : State) : (genStep s).recs.outseq = s.recs.outseq ++ shownBits (genStep s) := by
  cases hc : engineOut s.lfsr2 <;> simp [shownBits, outValidPin, outBitPin, hc]

theorem outseq_of_no_step {s t : State} (hrecs : t.recs = s.recs) (hsv : t.last.sv = false) :
    t.recs.outseq = s.recs.outseq ++ shownBits t := by
  simp [hrecs, shownBits, outValidPin, hsv]

theorem MicroSteps.outseq {s t : State} (h : MicroSteps s t) : t.recs.outseq = s.recs.outseq ++ shownBits t := by
  cases h with
  | run hp => exact genStep_outseq_shown s
  | _ => exact outseq_of_no_step rfl rfl

/-- A landing write keeps OUTSEQ with the port silent, appends the bit of a STEP, or begins a new sequence. -/
theorem Lands.outseq {s t : State} {i : Instr} (h : Lands s i t) (hsv : s.last.sv = false) :
    t.recs.outseq = s.recs.outseq ++ shownBits t ∨
      (t.recs.outseq = [] ∧ outValidPin t = false ∧ (i = .load ∨ i = .start ∨ i = .clear)) := by
  cases h with
  | load hc => exact .inr ⟨rfl, rfl, .inl rfl⟩
  | start hc => exact .inr ⟨rfl, rfl, .inr (.inl rfl)⟩
  | clear => exact .inr ⟨rfl, rfl, .inr (.inr rfl)⟩
  | step hl hn => exact .inl (genStep_outseq_shown s)
  | _ => exact .inl (outseq_of_no_step rfl hsv)

/-- Settles O49, by the cases of an edge; SV has fallen before a write lands. -/
theorem streamPortShowsEachKeptBitOnce : Obligations.StreamPortShowsEachKeptBitOnce := by
  intro s
  obtain ⟨t, ht, he⟩ := step_edge s
  refine ⟨t, ht, ?_⟩
  cases he with
  | reset hr => exact .inr ⟨rfl, rfl, .inl hr⟩
  | busy hr hb h => exact .inl h.outseq
  | quiet hr hb hq => exact .inl (outseq_of_no_step rfl rfl)
  | write hr hb hv hw ht h =>
    obtain h | ⟨hseq, hvalid, hi⟩ := h.outseq rfl
    · exact .inl h
    · exact .inr ⟨hseq, hvalid, .inr ⟨hb, _, ht, hi⟩⟩

end Sys2Proof.Machine
end

/-! ## What writes the result group (20_memory.md R65, 70_reset_and_hazards.md R229) -/

section
namespace Sys2Proof.Machine

/-- Short of the last edge of an EVAL phase, no micro-step writes the results (R172). -/
theorem microStep_res {s : State} (h : ¬(s.seq.phase = .eval ∧ s.seq.ecnt ≤ 1)) : (microStep s).res = s.res := by
  cases hp : s.seq.phase with
  | idle => simp [microStep, hp]
  | run => simp [microStep, hp, runEdge]
  | eval =>
    have hc : 1 < s.seq.ecnt := by simpa [hp] using h
    simp [microStep, hp, evalEdge, hc]

/-- A landing write keeps the results, or is a command that clears them (R53). -/
theorem Lands.res {s t : State} {i : Instr} (h : Lands s i t) :
    t.res = s.res ∨
      (t.res = Results.zero ∧ (i = .load ∨ i = .start ∨ i = .step ∨ i = .run ∨ i = .clear)) := by
  cases h with
  | load | start | step | runOfNone | run | clear => exact .inr ⟨rfl, by simp⟩
  | nop | write | rejected | eval => exact .inl rfl

/-- Settles O51, by the cases of an edge; a busy edge is one micro-step, which writes results only at the end of EVAL. -/
theorem resultsChangeOnlyAsStated : Obligations.ResultsChangeOnlyAsStated := by
  intro s
  obtain ⟨t, ht, he⟩ := step_edge s
  refine ⟨t, ht, ?_⟩
  cases he with
  | reset hr => exact .inr (.inr ⟨rfl, .inl hr⟩)
  | busy hr hb h =>
    by_cases hlast : s.seq.phase = .eval ∧ s.seq.ecnt ≤ 1
    · exact .inr (.inl hlast)
    · obtain rfl : microStep (busyStart s) = t := by simpa [step_of_busy s hb hr] using ht
      exact .inl (microStep_res (s := busyStart s) hlast)
  | quiet hr hb hq => exact .inl rfl
  | write hr hb hv hw ht h =>
    obtain h | ⟨hzero, hi⟩ := h.res
    · exact .inl h
    · exact .inr (.inr ⟨hzero, .inr ⟨hb, _, ht, hi⟩⟩)

end Sys2Proof.Machine
end

/-! ## Runs of a quiet host (20_memory.md R66, 70_reset_and_hazards.md R225, R232) -/

section
namespace Sys2Proof.Machine

/-- No micro-step takes a pin sample off the schedule. -/
theorem MicroSteps.inputs {s t : State} (h : MicroSteps s t) : t.inputs = s.inputs := by
  cases h <;> rfl

/-- At a busy edge without a write the micro-step starts from the block as it stands. -/
theorem busyStart_block {s : State} (hq : ((nextPins s).hValid && (nextPins s).hWe) = false) :
    (busyStart s).block = s.block := by
  simp [busyStart, State.block, hq]

/-- The coming edge of a quiet schedule presents no reset and no write, and the rest of the schedule is quiet; beyond the
schedule's end the host presents nothing. -/
theorem nextPins_of_quietInputs {n : Nat} {s : State} (h : quietInputs (n + 1) s.inputs) :
    (nextPins s).rst = false ∧ ((nextPins s).hValid && (nextPins s).hWe) = false ∧ quietInputs n s.inputs.tail := by
  unfold nextPins
  cases hin : s.inputs with
  | nil => exact ⟨rfl, rfl, by simp [quietInputs]⟩
  | cons p ps =>
    rw [hin, quietInputs, List.take_succ_cons, List.forall_mem_cons] at h
    obtain ⟨⟨hr, hw⟩, hrest⟩ := h
    exact ⟨hr, by simpa using hw, hrest⟩

/-- An edge without a reset and without a write is a micro-step of the block, whether the host reads or not (R66). -/
theorem step_block_of_quiet {s : State} (hr : (nextPins s).rst = false)
    (hq : ((nextPins s).hValid && (nextPins s).hWe) = false) :
    ∃ t, step s = .next t ∧ t.block = microStep s.block ∧ t.inputs = s.inputs.tail := by
  cases hb : s.busy with
  | true =>
    refine ⟨_, step_of_busy s hb hr, ?_, (microStep_microSteps (busyStart s)).inputs⟩
    rw [microStep_block, busyStart_block hq]
  | false =>
    have hidle : microStep s.block = lowerSv s.block := by
      have hp : s.seq.phase = .idle := (busy_eq_false_iff s).1 hb
      simp [microStep, hp]
    rw [hidle]
    cases hv : (nextPins s).hValid with
    | false => exact ⟨_, step_of_idle_nothing s hb hr hv, rfl, rfl⟩
    | true =>
      have hw : (nextPins s).hWe = false := by simpa [hv] using hq
      exact ⟨_, step_of_idle_read s hb hr hv hw, rfl, rfl⟩

/-- Under a quiet host the block runs by its micro-steps alone. -/
theorem afterSteps_block_of_quiet (n : Nat) (s : State) (h : quietInputs n s.inputs) :
    (afterSteps n s).block = microStep^[n] s.block := by
  induction n generalizing s with
  | zero => rfl
  | succ n ih =>
    obtain ⟨hr, hq, hrest⟩ := nextPins_of_quietInputs h
    obtain ⟨t, ht, hblock, hinputs⟩ := step_block_of_quiet hr hq
    rw [afterSteps_succ n ht, ih t (hinputs ▸ hrest), hblock, Function.iterate_succ_apply]

/-- Settles O53: both runs are the same micro-steps of the same block. -/
theorem readsDoNotDisturbTheBlock : Obligations.ReadsDoNotDisturbTheBlock := by
  intro s n ins ins' h h'
  calc (afterSteps n { s with inputs := ins }).block
      = microStep^[n] s.block := afterSteps_block_of_quiet n { s with inputs := ins } h
    _ = (afterSteps n { s with inputs := ins' }).block :=
        (afterSteps_block_of_quiet n { s with inputs := ins' } h').symm

end Sys2Proof.Machine
end

/-! ## The transaction word: encoding and decoding (30_encoding.md R80 to R84) -/

section
namespace Sys2Proof

/-- Settles O1: the seven commands by their opcodes, and one decoding rule for each form with operands. -/
theorem decodeOfEncodeIsIdentity : Obligations.DecodeOfEncodeIsIdentity := by
  intro i hwf
  cases i with
  | nop | start | load | step | run | eval | clear => exact (decode_of_command _).trans (by decide)
  | cmdIllegal v =>
    have hv : 7 ≤ v.toNat := by simpa [Instr.wf] using hwf
    exact (decode_of_command v).trans (decodeCommand_of_ge v hv)
  | wr a d =>
    have ha : a ≠ cmdNo := by simpa [Instr.wf] using hwf
    exact decode_of_write a d ha
  | rd a => exact decode_of_read a 0

/-- The word of a decoded write is the word it was decoded from (R84). -/
theorem encode_decode_write (a : RegNo) (d : Word) : encode (decode (packT39 true a d)) = packT39 true a d := by
  by_cases ha : a = cmdNo
  · rw [ha, decode_of_command, encode_decodeCommand]
  · rw [decode_of_write a d ha, encode]

/-- What holds of every word holds of every three fields put together (R80). -/
theorem forall_T39 {P : T39 → Prop} : (∀ w, P w) ↔ ∀ we a d, P (packT39 we a d) :=
  ⟨fun h _ _ _ => h _, fun h w => packT39_fields w ▸ h ..⟩

/-- Settles O2: the word is its three fields; a write by `encode_decode_write`, a read by the decoding of RD. -/
theorem everyWordIsOneTransaction : Obligations.EveryWordIsOneTransaction := by
  refine forall_T39.2 fun we a d => ?_
  rw [weField_packT39, addrField_packT39, wdataField_packT39]
  cases we with
  | true => exact ⟨Machine.decode_packT39_wf a d, rfl, fun _ => encode_decode_write a d, nofun⟩
  | false =>
    rw [decode_of_read]
    exact ⟨rfl, rfl, nofun, fun _ => rfl⟩

theorem packT39_inj {we we' : Bool} {a a' : RegNo} {d d' : Word} :
    packT39 we a d = packT39 we' a' d' ↔ we = we' ∧ a = a' ∧ d = d' := by
  constructor
  · intro h
    refine ⟨?_, ?_, ?_⟩
    · simpa only [weField_packT39] using congrArg weField h
    · simpa only [addrField_packT39] using congrArg addrField h
    · simpa only [wdataField_packT39] using congrArg wdataField h
  · rintro ⟨rfl, rfl, rfl⟩
    rfl

/-- The table with masks and patterns taken apart into the fields of R80. -/
theorem opcodeRows_fields : opcodeRows =
    [⟨"NOP", packT39 true (BitVec.allOnes 6) (BitVec.allOnes 32), packT39 true cmdNo 0⟩,
     ⟨"START", packT39 true (BitVec.allOnes 6) (BitVec.allOnes 32), packT39 true cmdNo 1⟩,
     ⟨"LOAD", packT39 true (BitVec.allOnes 6) (BitVec.allOnes 32), packT39 true cmdNo 2⟩,
     ⟨"STEP", packT39 true (BitVec.allOnes 6) (BitVec.allOnes 32), packT39 true cmdNo 3⟩,
     ⟨"RUN", packT39 true (BitVec.allOnes 6) (BitVec.allOnes 32), packT39 true cmdNo 4⟩,
     ⟨"EVAL", packT39 true (BitVec.allOnes 6) (BitVec.allOnes 32), packT39 true cmdNo 5⟩,
     ⟨"CLEAR", packT39 true (BitVec.allOnes 6) (BitVec.allOnes 32), packT39 true cmdNo 6⟩,
     ⟨"CMD.ILLEGAL", packT39 true (BitVec.allOnes 6) 0, packT39 true cmdNo 0⟩,
     ⟨"WR", packT39 true 0 0, packT39 true 0 0⟩,
     ⟨"RD", packT39 true 0 0, packT39 false 0 0⟩] := by decide

/-- The row of a word is found by its fields: a command's row compares all three, the row of CMD.ILLEGAL `we` and
`addr`, the last two rows `we` alone; under CMD the data then chooses among eight rows as `decodeCommand` does. -/
theorem firstRow_packT39 (we : Bool) (a : RegNo) (d : Word) :
    ∃ row, firstRow (packT39 we a d) = some row ∧ row.mnemonic = mnemonicOf (decode (packT39 we a d)) := by
  simp only [firstRow, opcodeRows_fields, packT39_and, packT39_inj, BitVec.and_allOnes, Bool.and_true,
    List.find?_cons, decode_packT39]
  cases we with
  | false => simp [mnemonicOf]
  | true =>
    by_cases ha : a = cmdNo
    · simp only [ha, if_true]
      unfold decodeCommand
      split_ifs <;> simp_all [mnemonicOf]
    · simp [ha, mnemonicOf]

/-- Settles O3: a word is its fields, whose first row is that of `firstRow_packT39`. -/
theorem firstMatchingRowNamesTheInstruction : Obligations.FirstMatchingRowNamesTheInstruction :=
  forall_T39.2 firstRow_packT39

/-- Settles O4: eleven closed words, by evaluating the decoder. -/
theorem wordsFromTheSpecDecode : Obligations.WordsFromTheSpecDecode := by
  unfold Obligations.WordsFromTheSpecDecode
  decide

end Sys2Proof
end

/-! ## Bit-strings in registers (30_encoding.md R85, 00_scope.md R7) -/

section
namespace Sys2Proof.Machine

theorem getLsbD_assembleBits (bs : List Bool) (i : Nat) (hi : i < 32) :
    (BitVec.ofNat 32 (assembleBits bs)).getLsbD i = bs.getD i false := by
  rw [BitVec.getLsbD_ofNat, testBit_assemble]
  simp [hi]

/-- Settles O5: element `i` is bit `i` of the value (`getLsbD_assembleBits`), and a register holds bits 0 to 31. -/
theorem assembledBitStringReadsBack : Obligations.AssembledBitStringReadsBack := by
  intro bs hlen
  refine ⟨assemble_lt bs, List.ext_getElem (length_bitsOf ..) fun i _ hi => ?_⟩
  simp only [bitsOf, List.getElem_map, List.getElem_range]
  rw [getLsbD_assembleBits bs i (by omega), List.getD_eq_getElem]

end Sys2Proof.Machine
end

/-! ## Reading the results back (30_encoding.md R87, R90) -/

section
namespace Sys2Proof.Machine

/-- `RD64` of the two registers of a 64-bit result is the result (R90, 20_memory.md R63). -/
theorem join64_lowWord_highWord (v : BitVec 64) : join64 (lowWord v) (highWord v) = v.toNat := by
  rw [join64, lowWord, highWord, BitVec.extractLsb'_toNat, BitVec.extractLsb'_toNat]
  simp only [Nat.shiftRight_eq_div_pow]
  omega

/-- Result decoding, register by register: of an idle block with valid results the host reads the result group (R87). -/
theorem readResult_of_valid {s : State} (hb : s.busy = false) (hv : s.res.resv = true) :
    readResult s = some
      { period := s.res.period.toNat
        chiNum := s.res.chiNum.toNat
        chiDen := s.res.chiDen.toNat
        degreesOfFreedom := s.res.df.toNat
        criticalMilli := if s.res.undef then none else some s.res.crit.toNat
        uniform := if s.res.undef then none else some s.res.uniform } := by
  have hbusy : (readReg s 0x04).getLsbD 0 = false := (getLsbD_statusWord s 0).trans hb
  have hresv : (readReg s 0x04).getLsbD 2 = true := (getLsbD_statusWord s 2).trans hv
  have huniform : (readReg s 0x2A).getLsbD 0 = s.res.uniform := getLsbD_resultWord s.res 0
  have hundef : (readReg s 0x2A).getLsbD 1 = s.res.undef := getLsbD_resultWord s.res 1
  have hperiod : join64 (readReg s 0x20) (readReg s 0x21) = s.res.period.toNat := join64_lowWord_highWord _
  have hchi : join64 (readReg s 0x22) (readReg s 0x23) = s.res.chiNum.toNat := join64_lowWord_highWord _
  have hdf : (readReg s 0x27).toNat = s.res.df.toNat := BitVec.toNat_setWidth_of_le (by decide)
  have hden : readReg s 0x24 = s.res.chiDen := rfl
  have hcrit : readReg s 0x29 = s.res.crit := rfl
  simp only [readResult, hbusy, hresv, huniform, hundef, hperiod, hchi, hdf, hden, hcrit, and_self, if_true]

/-! The results as the hardware holds them, and as numbers: no field is too narrow (10_state.md R47 to R49, R51). -/

/-- The period of two registers of at most 32 bits fits its two words (R138, R47). -/
theorem periodOf_lt {w1 w2 : Nat} (h1 : w1 ≤ 32) (h2 : w2 ≤ 32) : periodOf w1 w2 < 2 ^ 64 := by
  have hp1 : 2 ^ w1 - 1 < 2 ^ 32 := by
    have := Nat.pow_le_pow_right (by decide : 0 < 2) h1
    omega
  have hp2 : 2 ^ (w2 - 1) ≤ 2 ^ 32 := Nat.pow_le_pow_right (by decide) (by omega)
  calc periodOf w1 w2 < 2 ^ 32 * 2 ^ 32 := Nat.mul_lt_mul_of_lt_of_le hp1 hp2 (by decide)
    _ = 2 ^ 64 := by decide

theorem chiNumOf_lt {c0 c1 : Nat} (h : c0 + c1 < 2 ^ 31) : chiNumOf c0 c1 < 2 ^ 64 := by
  have hd : absDiff c0 c1 < 2 ^ 32 := by unfold absDiff; omega
  exact Nat.pow_lt_pow_left hd (by decide)

theorem chiDenOf_lt {c0 c1 : Nat} (h : c0 + c1 < 2 ^ 31) : chiDenOf c0 c1 < 2 ^ 32 := by
  unfold chiDenOf
  split <;> omega

theorem symbolsObserved_le (c0 c1 : Nat) : symbolsObserved c0 c1 ≤ 2 := by
  unfold symbolsObserved
  split_ifs <;> decide

/-- A sound block has counted fewer than 2^31 bits (R37, R38, R6). -/
theorem State.CounterInv.count_lt {s : State} (h : s.CounterInv) (hl : s.cfg.Legal) :
    s.acc.c0.toNat + s.acc.c1.toNat < 2 ^ 31 := by
  obtain ⟨hsum, hm, hsteps⟩ := h
  obtain ⟨-, ⟨-, hlmax⟩, -⟩ := hl
  omega

/-- The numbers in the result group, exactly, when the lengths and the counts are those of a sound block (R133). -/
theorem resultsOf_toNat (cfg : Config) {w1 w2 c0 c1 : Nat} (h1 : w1 ≤ 32) (h2 : w2 ≤ 32) (hc : c0 + c1 < 2 ^ 31) :
    (resultsOf cfg w1 w2 c0 c1).period.toNat = periodOf w1 w2 ∧
      (resultsOf cfg w1 w2 c0 c1).chiNum.toNat = chiNumOf c0 c1 ∧
      (resultsOf cfg w1 w2 c0 c1).chiDen.toNat = chiDenOf c0 c1 ∧
      (resultsOf cfg w1 w2 c0 c1).df.toNat = symbolsObserved c0 c1 - 1 := by
  have hperiod := periodOf_lt h1 h2
  have hnum := chiNumOf_lt hc
  have hden := chiDenOf_lt hc
  have hsymbols := symbolsObserved_le c0 c1
  simp (disch := omega) only [resultsOf, BitVec.toNat_ofNat, Nat.mod_eq_of_lt, and_self]

/-- Settles O60: the host reads the result group, which in a sound block is `resultsOf` of its counters; the two fields
of the verdict are there unless only one symbol was observed. -/
theorem hostReadsTheExactResults : Obligations.HostReadsTheExactResults := by
  intro s hi hb hv
  obtain ⟨hlegal, ⟨⟨hw1, -⟩, ⟨hw2, -⟩, -⟩, hcount, -, -, ⟨-, hresults, -⟩, -⟩ := hi
  obtain ⟨-, -, hres⟩ := hresults hv
  have hlt := hcount.count_lt hlegal
  obtain ⟨⟨-, hwmax⟩, -⟩ := hlegal
  obtain ⟨hm, -⟩ := hcount
  obtain ⟨hperiod, hnum, hden, hdf⟩ := resultsOf_toNat s.cfg (hw1.trans hwmax) (hw2.trans hwmax) hlt
  rw [readResult_of_valid hb hv, hres, hperiod, hnum, hden, hdf, hm]
  by_cases hone : symbolsObserved s.acc.c0.toNat s.acc.c1.toNat = 1
  · simp [resultsOf, periodOf, hone]
  · simp [resultsOf, periodOf, keyOf, hone]

end Sys2Proof.Machine
end

/-! ## The LFSR engine on lists of bits (40_lfsr_engine.md R101, R103, R107, R108, R110, R111) -/

section
namespace Sys2Proof.Machine

/-- The step of a register with a last element: it is emitted, the feedback enters at element 0 (R101). -/
theorem listStep_concat (r : List Bool) (b : Bool) (t : List Bool) :
    listStep (r ++ [b]) t = (b, listFeedback (r ++ [b]) t :: r) := by
  simp [listStep]

/-- The emitted bit and the next register read backwards are the register read backwards and the feedback bit. -/
theorem listStep_history (r t : List Bool) :
    (listStep r t).1 :: (listStep r t).2.reverse = r.reverse ++ [listFeedback r t] := by
  cases r using List.reverseRecOn with
  | nil => rfl
  | append_singleton r b => simp [listStep_concat]

theorem length_listStep (r t : List Bool) : (listStep r t).2.length = r.length := by
  simpa using congrArg List.length (listStep_history r t)

/-! The steps in sequence (R103). -/

@[simp] theorem listGenerate_zero (r t : List Bool) : listGenerate r t 0 = ([], r) := rfl

theorem listGenerate_succ (r t : List Bool) (n : Nat) :
    listGenerate r t (n + 1) =
      ((listStep r t).1 :: (listGenerate (listStep r t).2 t n).1, (listGenerate (listStep r t).2 t n).2) := rfl

@[simp] theorem length_listGenerate_outputs (r t : List Bool) (n : Nat) : (listGenerate r t n).1.length = n := by
  induction n generalizing r with
  | zero => rfl
  | succ n ih => simp [listGenerate_succ, ih]

@[simp] theorem length_listGenerate_register (r t : List Bool) (n : Nat) :
    (listGenerate r t n).2.length = r.length := by
  induction n generalizing r with
  | zero => rfl
  | succ n ih => rw [listGenerate_succ, ih, length_listStep]

/-- `a + b` steps are `a` steps and then `b` steps. -/
theorem listGenerate_add (r t : List Bool) (a b : Nat) :
    listGenerate r t (a + b) =
      ((listGenerate r t a).1 ++ (listGenerate (listGenerate r t a).2 t b).1,
        (listGenerate (listGenerate r t a).2 t b).2) := by
  induction a generalizing r with
  | zero => simp
  | succ a ih => rw [Nat.succ_add, listGenerate_succ, ih, listGenerate_succ, List.cons_append]

/-- Settles O37: both lengths and the composition, by induction on the number of steps. -/
theorem generateComposes : Obligations.GenerateComposes := fun r t a b =>
  ⟨length_listGenerate_outputs r t a, length_listGenerate_register r t a, listGenerate_add r t a b⟩

/-! Output history and state determine each other (R110). -/

/-- The feedback bits of `n` steps in order: at time `i` the feedback of the register `R_i`. -/
def feedbackStream (r t : List Bool) (n : Nat) : List Bool :=
  (List.range n).map fun i => listFeedback (listGenerate r t i).2 t

theorem feedbackStream_succ (r t : List Bool) (n : Nat) :
    feedbackStream r t (n + 1) = listFeedback r t :: feedbackStream (listStep r t).2 t n := by
  simp [feedbackStream, List.range_succ_eq_map, Function.comp_def, listGenerate_succ]

@[simp] theorem length_feedbackStream (r t : List Bool) (n : Nat) : (feedbackStream r t n).length = n := by
  simp [feedbackStream]

/-- The bits that passed through the register, in the order they leave it: those already emitted and those still in it
are the seed's and then the feedback bits. -/
theorem listGenerate_history (r t : List Bool) (n : Nat) :
    (listGenerate r t n).1 ++ (listGenerate r t n).2.reverse = r.reverse ++ feedbackStream r t n := by
  induction n generalizing r with
  | zero => simp [feedbackStream]
  | succ n ih =>
    calc (listGenerate r t (n + 1)).1 ++ (listGenerate r t (n + 1)).2.reverse
        = (listStep r t).1 :: ((listStep r t).2.reverse ++ feedbackStream (listStep r t).2 t n) := by
          rw [listGenerate_succ, List.cons_append, ih]
      _ = r.reverse ++ feedbackStream r t (n + 1) := by
          rw [← List.cons_append, listStep_history, feedbackStream_succ, List.append_assoc, List.singleton_append]

/-- The first `w` outputs are the seed reversed (R110 (a)). -/
theorem take_outputs {r : List Bool} {n : Nat} (t : List Bool) (hn : r.length ≤ n) :
    (listGenerate r t n).1.take r.length = r.reverse := by
  have h := congrArg (List.take r.length) (listGenerate_history r t n)
  rwa [List.take_append_of_le_length (by simpa using hn), List.take_left' (by simp)] at h

/-- Every later output is a feedback bit (R110 (b)). -/
theorem getElem?_outputs (r t : List Bool) {i n : Nat} (hi : i + r.length < n) :
    (listGenerate r t n).1[i + r.length]? = some (listFeedback (listGenerate r t i).2 t) := by
  have hin : i < n := by omega
  calc (listGenerate r t n).1[i + r.length]?
      = (r.reverse ++ feedbackStream r t n)[i + r.length]? := by
        rw [← listGenerate_history, List.getElem?_append_left (by simpa using hi)]
    _ = some (listFeedback (listGenerate r t i).2 t) := by
        rw [List.getElem?_append_right (by simp)]
        simp [feedbackStream, hin]

/-- The register at time `a` is the next `w` outputs in reverse order. -/
theorem register_eq_coming_outputs (r t : List Bool) (a : Nat) {b : Nat} (hb : r.length ≤ b) :
    (listGenerate r t a).2 = (((listGenerate r t (a + b)).1.drop a).take r.length).reverse := by
  have htake := take_outputs t ((length_listGenerate_register r t a).trans_le hb)
  rw [length_listGenerate_register] at htake
  rw [listGenerate_add, List.drop_left' (by simp), htake, List.reverse_reverse]

/-- Settles O38: the three laws of R110 for a run of `n + w + 1` steps; the recurrence is the feedback of the register
at time `n`, which the outputs before it show. -/
theorem registerIsTheComingOutputReversed : Obligations.RegisterIsTheComingOutputReversed := by
  intro seed taps n _ _ outs
  have hreg : (listGenerate seed taps n).2 = ((outs.drop n).take seed.length).reverse :=
    register_eq_coming_outputs seed taps n (Nat.le_succ _)
  have hfb := getElem?_outputs seed taps (Nat.lt_succ_self (n + seed.length))
  exact ⟨hreg, take_outputs taps (by omega), hfb, hreg ▸ hfb⟩

/-! The runs known in closed form (R107, R108, R111). -/

theorem listFeedback_comm (r t : List Bool) : listFeedback r t = listFeedback t r := by
  induction r generalizing t with
  | nil => cases t <;> rfl
  | cons a r ih =>
    cases t with
    | nil => rfl
    | cons b t => simp [listFeedback, ih t, Bool.and_comm a b]

theorem listFeedback_zeroTaps (r : List Bool) (w : Nat) : listFeedback r (List.replicate w false) = false := by
  induction r generalizing w with
  | nil => rfl
  | cons a r ih =>
    cases w with
    | zero => rfl
    | succ w => simp [listFeedback, List.replicate_succ, ih w]

theorem listFeedback_zeroRegister (w : Nat) (t : List Bool) : listFeedback (List.replicate w false) t = false :=
  (listFeedback_comm _ _).trans (listFeedback_zeroTaps t w)

theorem listStep_zeroRegister (w : Nat) (t : List Bool) :
    listStep (List.replicate w false) t = (false, List.replicate w false) := by
  cases w with
  | zero => rfl
  | succ w =>
    rw [List.replicate_succ', listStep_concat, ← List.replicate_succ', listFeedback_zeroRegister, List.replicate_succ]

theorem listGenerate_zeroRegister (w n : Nat) (t : List Bool) :
    listGenerate (List.replicate w false) t n = (List.replicate n false, List.replicate w false) := by
  induction n with
  | zero => rfl
  | succ n ih => rw [listGenerate_succ, listStep_zeroRegister, ih, List.replicate_succ]

/-- The all-zero polynomial feeds back zeros only. -/
theorem feedbackStream_zeroTaps (r : List Bool) (w n : Nat) :
    feedbackStream r (List.replicate w false) n = List.replicate n false := by
  simp [feedbackStream, listFeedback_zeroTaps]

/-- The all-zero polynomial: of the seed's bits and the zeros after them the register holds the last `w` (R108). -/
theorem listGenerate_zeroTaps (r : List Bool) (w n : Nat) :
    listGenerate r (List.replicate w false) (r.length + n) =
      (r.reverse ++ List.replicate n false, List.replicate r.length false) := by
  have h := listGenerate_history r (List.replicate w false) (r.length + n)
  rw [feedbackStream_zeroTaps, Nat.add_comm, ← List.replicate_append_replicate, ← List.append_assoc] at h
  obtain ⟨houts, hreg⟩ := List.append_inj h (by simp [Nat.add_comm])
  rw [Nat.add_comm, Prod.ext_iff]
  exact ⟨houts, by simpa using congrArg List.reverse hreg⟩

/-- The taps of width `w` with the only 1 at position `w - 1` (R111). -/
def lastTap (w : Nat) : List Bool := List.replicate (w - 1) false ++ [true]

theorem listFeedback_lastTap (r : List Bool) (b : Bool) :
    listFeedback (r ++ [b]) (lastTap (r.length + 1)) = b := by
  induction r with
  | nil => simp [listFeedback, lastTap]
  | cons a r ih => simpa [listFeedback, lastTap, List.replicate_succ] using ih

/-- With the only tap at the last position the feedback is the emitted bit. -/
theorem listFeedback_lastTap_eq_output (r : List Bool) :
    listFeedback r (lastTap r.length) = (listStep r (lastTap r.length)).1 := by
  cases r using List.reverseRecOn with
  | nil => rfl
  | append_singleton r b =>
    rw [listStep_concat, List.length_append]
    exact listFeedback_lastTap r b

theorem feedbackStream_lastTap (r : List Bool) (n : Nat) :
    feedbackStream r (lastTap r.length) n = (listGenerate r (lastTap r.length) n).1 := by
  generalize hw : r.length = w
  induction n generalizing r with
  | zero => rfl
  | succ n ih =>
    rw [feedbackStream_succ, listGenerate_succ, ih _ ((length_listStep ..).trans hw), ← hw,
      listFeedback_lastTap_eq_output]

/-- One turn of the rotating register: what it emitted came in again. -/
theorem listGenerate_lastTap_turn (r : List Bool) :
    listGenerate r (lastTap r.length) r.length = (r.reverse, r) := by
  have h := listGenerate_history r (lastTap r.length) r.length
  rw [feedbackStream_lastTap] at h
  obtain ⟨houts, hreg⟩ := List.append_inj h (by simp)
  rw [Prod.ext_iff]
  exact ⟨houts, List.reverse_injective (hreg.trans houts)⟩

theorem listGenerate_lastTap (r : List Bool) (k : Nat) :
    listGenerate r (lastTap r.length) (k * r.length) = ((List.replicate k r.reverse).flatten, r) := by
  induction k with
  | zero => simp
  | succ k ih =>
    rw [Nat.succ_mul, Nat.add_comm, listGenerate_add, listGenerate_lastTap_turn, ih, List.replicate_succ,
      List.flatten_cons]

/-- Settles O39: `k` turns, by induction on `k`. -/
theorem lastTapRotatesTheRegister : Obligations.LastTapRotatesTheRegister := fun seed k _ =>
  listGenerate_lastTap seed k

/-- Settles O41: with its tap the one-bit register is a rotating one, without it the polynomial is all-zero. -/
theorem oneBitRegisterRuns : Obligations.OneBitRegisterRuns := by
  intro b n
  have hrotates := listGenerate_lastTap [b] n
  have hdrains := listGenerate_zeroTaps [b] 1 n
  exact ⟨by simpa [lastTap] using hrotates, by simpa [Nat.add_comm] using hdrains⟩

/-! The configuration check as a condition on the operands (43_commands.md R164). -/

theorem widthBad_eq_false_iff {wmax : Nat} {plen slen : Word} :
    widthBad wmax plen slen = false ↔ LengthsInRange wmax plen slen := by
  simp [widthBad, LengthsInRange]

theorem lengthsDiffer_eq_false_iff {plen slen : Word} : lengthsDiffer plen slen = false ↔ plen = slen := by
  simp [lengthsDiffer]

/-- No 1 at or above the length: the register shifted down by it is 0. -/
theorem not_strayBit_iff {v len : Word} : ¬StrayBit v len ↔ v >>> len.toNat = 0 := by
  constructor
  · intro h
    refine BitVec.eq_of_getLsbD_eq fun i _ => ?_
    rw [BitVec.getLsbD_ushiftRight, BitVec.ofNat_eq_ofNat, BitVec.getLsbD_zero]
    exact Bool.eq_false_iff.2 fun hbit => h ⟨_, Nat.le_add_right .., hbit⟩
  · rintro h ⟨i, hi, hbit⟩
    rw [getLsbD_of_lt v _ i (lt_of_no_stray v len h) hi] at hbit
    exact Bool.false_ne_true hbit

theorem strayBits_eq_false_iff {p plen s slen : Word} :
    strayBits p plen s slen = false ↔ ¬StrayBit p plen ∧ ¬StrayBit s slen := by
  rw [not_strayBit_iff, not_strayBit_iff]
  simp [strayBits]

theorem not_strayBit_zero (len : Word) : ¬StrayBit 0 len :=
  not_strayBit_iff.2 BitVec.zero_ushiftRight

/-- What a passed check says of the operands, lengths and bits (R164). -/
theorem checkConfig_eq_none_iff {cfg : Config} {o : OperandRegs} :
    checkConfig cfg o = none ↔
      (LengthsInRange cfg.wmax o.p1len o.s1len ∧ LengthsInRange cfg.wmax o.p2len o.s2len) ∧
      (o.p1len = o.s1len ∧ o.p2len = o.s2len) ∧
      (¬StrayBit o.p1 o.p1len ∧ ¬StrayBit o.s1 o.s1len) ∧ ¬StrayBit o.p2 o.p2len ∧ ¬StrayBit o.s2 o.s2len := by
  rw [← widthBad_eq_false_iff, ← widthBad_eq_false_iff, ← lengthsDiffer_eq_false_iff, ← lengthsDiffer_eq_false_iff,
    ← strayBits_eq_false_iff, ← strayBits_eq_false_iff]
  refine ⟨checkConfig_none, ?_⟩
  rintro ⟨⟨hw1, hw2⟩, ⟨hd1, hd2⟩, hs1, hs2⟩
  simp [checkConfig, hw1, hw2, hd1, hd2, hs1, hs2]

/-- Settles O40: the two closed forms, and a check whose stray-bit part holds of a zero register at any length. -/
theorem zeroSeedAndZeroPolynomial : Obligations.ZeroSeedAndZeroPolynomial := by
  refine ⟨listGenerate_zeroRegister, fun seed n => listGenerate_zeroTaps seed _ n, ?_⟩
  intro cfg o hw1 hw2 hd1 hd2 hs1 hp1 hs2 hp2
  have clean {v len : Word} (h : v = 0 ∨ ¬StrayBit v len) : ¬StrayBit v len :=
    h.elim (fun h0 => h0 ▸ not_strayBit_zero len) id
  exact checkConfig_eq_none_iff.2 ⟨⟨hw1, hw2⟩, ⟨hd1, hd2⟩, ⟨clean hp1, clean hs1⟩, clean hp2, clean hs2⟩

end Sys2Proof.Machine
end

/-! ## The LFSR engine on register values (40_lfsr_engine.md R102) -/

section
namespace Sys2Proof.Machine

theorem bitsOf_succ (n : Nat) (v : Word) : bitsOf (n + 1) v = bitsOf n v ++ [v.getLsbD n] := by
  simp [bitsOf, List.range_succ]

/-- The bits of a register element 0 first: element 0, and the bits above it. -/
theorem bitsOf_succ_eq_cons (n : Nat) (v : Word) :
    bitsOf (n + 1) v = v.getLsbD 0 :: (List.range n).map fun i => v.getLsbD (i + 1) := by
  simp [bitsOf, List.range_succ_eq_map, Function.comp_def]

theorem listFeedback_concat {r t : List Bool} (h : r.length = t.length) (a b : Bool) :
    listFeedback (r ++ [a]) (t ++ [b]) = Bool.xor (listFeedback r t) (a && b) := by
  induction r generalizing t with
  | nil =>
    obtain rfl : t = [] := by simpa using h.symm
    simp [listFeedback]
  | cons c r ih =>
    cases t with
    | nil => simp at h
    | cons d t => simp [listFeedback, ih (by simpa using h)]

theorem listFeedback_bitsOf_succ (r t : Word) (n : Nat) :
    listFeedback (bitsOf (n + 1) r) (bitsOf (n + 1) t) =
      Bool.xor (listFeedback (bitsOf n r) (bitsOf n t)) ((r &&& t).getLsbD n) := by
  rw [bitsOf_succ, bitsOf_succ, listFeedback_concat (by simp [length_bitsOf]), BitVec.getLsbD_and]

/-- The XOR tree over the lowest `n` bits of `R & T` is the feedback of the lists of those bits. -/
theorem listFeedback_bitsOf_eq_foldl (r t : Word) (n : Nat) :
    listFeedback (bitsOf n r) (bitsOf n t) =
      (List.range n).foldl (fun p i => Bool.xor p ((r &&& t).getLsbD i)) false := by
  induction n with
  | zero => rfl
  | succ n ih => rw [listFeedback_bitsOf_succ, ih, List.range_succ, List.foldl_concat]

/-- Bits of the register at and above its width do not feed back. -/
theorem listFeedback_bitsOf_of_le {r : Word} (t : Word) {w n : Nat} (hr : r.toNat < 2 ^ w) (hn : w ≤ n) :
    listFeedback (bitsOf n r) (bitsOf n t) = listFeedback (bitsOf w r) (bitsOf w t) := by
  induction n, hn using Nat.le_induction with
  | base => rfl
  | succ n hn ih => rw [listFeedback_bitsOf_succ, ih, BitVec.getLsbD_and, getLsbD_of_lt r w n hr hn]; simp

theorem listFeedback_bitsOf {r : Word} (t : Word) {w : Nat} (hr : r.toNat < 2 ^ w) (hw : w ≤ 32) :
    listFeedback (bitsOf w r) (bitsOf w t) = parity (r &&& t) :=
  calc listFeedback (bitsOf w r) (bitsOf w t)
      = listFeedback (bitsOf 32 r) (bitsOf 32 t) := (listFeedback_bitsOf_of_le t hr hw).symm
    _ = parity (r &&& t) := listFeedback_bitsOf_eq_foldl r t 32

/-! The bits of the next register. -/

theorem getLsbD_lfsrNext_zero (r t : Word) {w : Nat} (hw : 1 ≤ w) :
    (lfsrNext r t w).getLsbD 0 = parity (r &&& t) := by
  have hpos : 0 < w := hw
  rw [lfsrNext, BitVec.getLsbD_and, getLsbD_mask]
  simp [-BitVec.getLsbD_eq_getElem, hpos]

theorem getLsbD_lfsrNext_succ (r t : Word) {w i : Nat} (hi : i + 1 < w) (hw : w ≤ 32) :
    (lfsrNext r t w).getLsbD (i + 1) = r.getLsbD i := by
  have hlt : i + 1 < 32 := by omega
  rw [lfsrNext, BitVec.getLsbD_and, getLsbD_mask]
  simp [-BitVec.getLsbD_eq_getElem, hi, hlt]

/-- Bit `i` of `2R + fb`. -/
theorem toNat_lfsrNext (r t : Word) {w : Nat} (hw : w ≤ 32) :
    (lfsrNext r t w).toNat = (2 * r.toNat + (parity (r &&& t)).toNat) % 2 ^ w := by
  rw [← Nat.bit_val]
  refine Nat.eq_of_testBit_eq fun i => ?_
  rw [Nat.testBit_mod_two_pow, BitVec.testBit_toNat]
  by_cases hi : i < w
  · cases i with
    | zero => rw [getLsbD_lfsrNext_zero r t hi, Nat.testBit_bit_zero]; simp [hi]
    | succ i => rw [getLsbD_lfsrNext_succ r t hi hw, Nat.testBit_bit_succ, BitVec.testBit_toNat]; simp [hi]
  · simp [hi, getLsbD_of_lt _ w i (lfsrNext_lt r t w) (by omega)]

theorem bitsOf_lfsrNext (r t : Word) {n : Nat} (hw : n + 1 ≤ 32) :
    bitsOf (n + 1) (lfsrNext r t (n + 1)) = parity (r &&& t) :: bitsOf n r := by
  rw [bitsOf_succ_eq_cons, getLsbD_lfsrNext_zero r t (by omega)]
  congr 1
  refine List.map_congr_left fun i hi => getLsbD_lfsrNext_succ r t ?_ hw
  simpa using hi

/-- Settles O36: a register of width `n + 1` is its `n` lower bits and the last one, which is emitted; the rest move up
one place, behind the parity. -/
theorem registerStepIsTheListStep : Obligations.RegisterStepIsTheListStep := by
  intro r t w h1 hw hr _
  have hfb := listFeedback_bitsOf t hr hw
  obtain ⟨n, rfl⟩ := Nat.exists_eq_add_of_le' h1
  refine ⟨?_, rfl, hfb, toNat_lfsrNext r t hw⟩
  rw [bitsOf_lfsrNext r t hw, ← hfb, bitsOf_succ n r, listStep_concat]
  rfl

end Sys2Proof.Machine
end

/-! ## The combiner on lists of bits (41_shrinking_combiner.md R120, R123, R124) -/

section
namespace Sys2Proof.Machine

/-! The branches of `combine`: a pair is kept or discarded by its control bit, and the first stream to end ends it. -/

@[simp] theorem combine_nil_left (c : List Bool) : combine [] c = [] := by simp [combine]

@[simp] theorem combine_nil_right (d : List Bool) : combine d [] = [] := by simp [combine]

@[simp] theorem combine_cons_true (a : Bool) (d c : List Bool) : combine (a :: d) (true :: c) = a :: combine d c := rfl

@[simp] theorem combine_cons_false (a : Bool) (d c : List Bool) : combine (a :: d) (false :: c) = combine d c := rfl

/-- The surviving bits keep their order (R123). -/
theorem combine_sublist (d c : List Bool) : List.Sublist (combine d c) d := by
  induction d generalizing c with
  | nil => simp
  | cons a d ih =>
    match c with
    | [] => simp
    | true :: c => exact (ih c).cons_cons a
    | false :: c => exact (ih c).cons a

/-- One bit survives per 1 among the paired control bits (R123). -/
theorem length_combine (d c : List Bool) : (combine d c).length = (c.take d.length).count true := by
  induction d generalizing c with
  | nil => simp
  | cons a d ih =>
    match c with
    | [] => simp
    | true :: c => simp [ih]
    | false :: c => simp [ih]

/-- For paired streams nothing is cut off: every 1 of the control stream keeps a bit (R123). -/
theorem length_combine_of_length_eq {d c : List Bool} (h : d.length = c.length) :
    (combine d c).length = c.count true := by
  rw [length_combine, h, List.take_length]

/-- Bits beyond the shorter stream do not matter (R124). -/
theorem combine_take_min (d c : List Bool) :
    combine (d.take (min d.length c.length)) (c.take (min d.length c.length)) = combine d c := by
  induction d generalizing c with
  | nil => simp
  | cons a d ih =>
    match c with
    | [] => simp
    | true :: c => simp [Nat.add_min_add_right, ih]
    | false :: c => simp [Nat.add_min_add_right, ih]

/-- In a sound block M is the length of the Combined Sequence: `C0` and `C1` count its two symbols (R131). -/
theorem m_eq_length_outseq {s : State} (hc : s.CounterInv) (hr : s.RecordInv) :
    s.acc.m.toNat = s.recs.outseq.length := by
  obtain ⟨hsum, -⟩ := hc
  obtain ⟨-, -, -, h0, h1, -⟩ := hr
  rw [hsum, h0, h1]
  exact List.count_false_add_count_true _

/-- Settles O42: a kept pair adds one bit to the output and one 1 to the count; in the block the two streams are equally
long, so the length of their combination, which M is, counts every 1 of CSEQ. -/
theorem combineKeepsOrderAndCountsOnes : Obligations.CombineKeepsOrderAndCountsOnes := by
  refine ⟨fun d c => ⟨combine_sublist d c, length_combine d c, (combine_take_min d c).symm⟩, fun s hi => ?_⟩
  obtain ⟨-, ⟨-, hcount, hrec⟩, -⟩ := (inv_iff s).1 hi
  have hm := m_eq_length_outseq hcount hrec
  obtain ⟨-, hle, -⟩ := hcount
  obtain ⟨hd, hc, hout, -⟩ := hrec
  refine ⟨?_, hle⟩
  rw [hm, hout, length_combine_of_length_eq (hd.trans hc.symm)]

end Sys2Proof.Machine
end

/-! ## The statistical test as numbers (42_chi_squared_test.md R138 to R149) -/

section
namespace Sys2Proof.Machine

/-! The counts and the two parts of the statistic (R131, R141). -/

/-- Of a nonempty sequence exactly one symbol was observed when one count is 0 (R131). -/
theorem symbolsObserved_eq_one {c0 c1 : Nat} (h : 1 ≤ c0 + c1) :
    symbolsObserved c0 c1 = 1 ↔ c0 = 0 ∨ c1 = 0 := by
  unfold symbolsObserved
  split_ifs <;> omega

theorem absDiff_eq_natAbs (a b : Nat) : absDiff a b = ((a : Int) - b).natAbs := by
  unfold absDiff
  omega

theorem chiNumOf_cast (c0 c1 : Nat) : (chiNumOf c0 c1 : Int) = ((c0 : Int) - c1) ^ 2 := by
  rw [chiNumOf, absDiff_eq_natAbs, Nat.cast_pow, Int.natAbs_sq]

theorem chiNumOf_cast_rat (c0 c1 : Nat) : (chiNumOf c0 c1 : ℚ) = ((c0 : ℚ) - c1) ^ 2 := by
  exact_mod_cast congrArg (Int.cast (R := ℚ)) (chiNumOf_cast c0 c1)

theorem chiDenOf_of_both {c0 c1 : Nat} (h0 : 0 < c0) (h1 : 0 < c1) : chiDenOf c0 c1 = c0 + c1 :=
  if_pos (symbolsObserved_eq_two.2 ⟨h0, h1⟩)

theorem chiDenOf_of_one {c0 c1 : Nat} (h : c0 = 0 ∨ c1 = 0) : chiDenOf c0 c1 = 2 * (c0 + c1) :=
  if_neg (mt symbolsObserved_eq_two.1 (by omega))

theorem le_chiDenOf (c0 c1 : Nat) : c0 + c1 ≤ chiDenOf c0 c1 := by
  unfold chiDenOf
  split <;> omega

/-! The rational statistic (R139) in its two cases (R141). -/

/-- With both symbols observed the deviations from the expected count are equal and opposite. -/
theorem chiSquaredStatistic_of_both {c0 c1 : Nat} (h0 : 0 < c0) (h1 : 0 < c1) :
    chiSquaredStatistic c0 c1 = ((c0 : ℚ) - c1) ^ 2 / ((c0 : ℚ) + c1) := by
  have hm : (c0 : ℚ) + c1 ≠ 0 := by positivity
  simp only [chiSquaredStatistic, h0, h1, if_true]
  field_simp
  ring

/-- The term of a symbol that makes up the whole of a sequence of length `m`. -/
theorem chiSquaredTerm_whole {m : ℚ} (hm : m ≠ 0) : (m - m / 2) ^ 2 / (m / 2) = m / 2 := by
  rw [sub_half, sq, mul_div_cancel_right₀ _ (div_ne_zero hm two_ne_zero)]

/-- With one symbol observed the only term is that of a count equal to M. -/
theorem chiSquaredStatistic_of_one {c0 c1 : Nat} (hm : 1 ≤ c0 + c1) (h : c0 = 0 ∨ c1 = 0) :
    chiSquaredStatistic c0 c1 = ((c0 : ℚ) + c1) / 2 := by
  obtain rfl | rfl := h
  · have h1 : 0 < c1 := by omega
    simp [chiSquaredStatistic, h1, chiSquaredTerm_whole, h1.ne']
  · have h0 : 0 < c0 := by omega
    simp [chiSquaredStatistic, h0, chiSquaredTerm_whole, h0.ne']

/-- The statistic is the quotient of its two parts, whatever was observed. -/
theorem chiSquaredStatistic_eq_div {c0 c1 : Nat} (hm : 1 ≤ c0 + c1) :
    chiSquaredStatistic c0 c1 = (chiNumOf c0 c1 : ℚ) / (chiDenOf c0 c1 : ℚ) := by
  rw [chiNumOf_cast_rat]
  by_cases h : c0 = 0 ∨ c1 = 0
  · have hm0 : (c0 : ℚ) + c1 ≠ 0 := by exact_mod_cast (by omega : c0 + c1 ≠ 0)
    rw [chiSquaredStatistic_of_one hm h, chiDenOf_of_one h]
    push_cast
    field_simp
    obtain rfl | rfl := h <;> simp
  · rw [chiSquaredStatistic_of_both (by omega) (by omega), chiDenOf_of_both (by omega) (by omega), Nat.cast_add]

/-- Each symbol occurs at least once, so the counts differ by at most `M - 2`. -/
theorem sq_count_diff_le {c0 c1 : Nat} (h0 : 0 < c0) (h1 : 0 < c1) :
    ((c0 : ℚ) - c1) ^ 2 ≤ ((c0 : ℚ) + c1 - 2) ^ 2 := by
  have h0' : (1 : ℚ) ≤ c0 := by exact_mod_cast h0
  have h1' : (1 : ℚ) ≤ c1 := by exact_mod_cast h1
  exact sq_le_sq' (by linarith) (by linarith)

/-- The range of the statistic when both symbols were observed (R141). -/
theorem chiSquaredStatistic_range {c0 c1 : Nat} (h0 : 0 < c0) (h1 : 0 < c1) :
    0 ≤ chiSquaredStatistic c0 c1 ∧
      chiSquaredStatistic c0 c1 ≤ ((c0 : ℚ) + c1 - 2) ^ 2 / ((c0 : ℚ) + c1) ∧
      chiSquaredStatistic c0 c1 < (c0 : ℚ) + c1 := by
  have hm : (0 : ℚ) < (c0 : ℚ) + c1 := by positivity
  have hlt : ((c0 : ℚ) - c1) ^ 2 < ((c0 : ℚ) + c1) * ((c0 : ℚ) + c1) := by
    have : (0 : ℚ) < (c0 : ℚ) * c1 := by positivity
    linarith
  rw [chiSquaredStatistic_of_both h0 h1]
  exact ⟨by positivity, by gcongr ?_ / _; exact sq_count_diff_le h0 h1, (div_lt_iff₀ hm).2 hlt⟩

/-- Settles O43: the sum over the observed symbols, computed in each of its two cases. -/
theorem statisticClosedForm : Obligations.StatisticClosedForm := by
  intro c0 c1 hm
  refine ⟨chiSquaredStatistic_eq_div hm, chiNumOf_cast c0 c1, ?_, chiSquaredStatistic_range,
    chiSquaredStatistic_of_one hm⟩
  simp only [chiDenOf, symbolsObserved_eq_two]

/-! The result group of a successful evaluation (R133), field by field. -/

/-- Both checks pass (R133). -/
theorem evaluate_eq_ok (cfg : Config) (w1 : Nat) {w2 c0 c1 : Nat} (hw : 1 ≤ w2) (hm : 1 ≤ c0 + c1) :
    evaluate cfg w1 w2 c0 c1 = .ok (resultsOf cfg w1 w2 c0 c1) := by
  rw [evaluate, if_neg (by omega), if_neg (by omega)]

/-- The statistic in thousandths is at most `1000 * M`, so it fits its 64 bits (R142). -/
theorem chiMilliOf_lt {c0 c1 : Nat} (hc : c0 + c1 < 2 ^ 31) : chiMilliOf c0 c1 < 2 ^ 64 := by
  have hnum : chiNumOf c0 c1 ≤ (c0 + c1) * chiDenOf c0 c1 := by
    have hdiff : absDiff c0 c1 ≤ c0 + c1 := by unfold absDiff; omega
    calc chiNumOf c0 c1 = absDiff c0 c1 * absDiff c0 c1 := sq _
      _ ≤ (c0 + c1) * chiDenOf c0 c1 := Nat.mul_le_mul hdiff (hdiff.trans (le_chiDenOf c0 c1))
  have hmilli : critScale * chiNumOf c0 c1 ≤ critScale * (c0 + c1) * chiDenOf c0 c1 := by
    rw [mul_assoc]
    exact Nat.mul_le_mul_left _ hnum
  calc chiMilliOf c0 c1 ≤ critScale * (c0 + c1) := Nat.div_le_of_le_mul (hmilli.trans_eq (Nat.mul_comm _ _))
    _ < 2 ^ 64 := by unfold critScale; omega

theorem toNat_chiMilli_resultsOf (cfg : Config) (w1 w2 : Nat) {c0 c1 : Nat} (hc : c0 + c1 < 2 ^ 31) :
    (resultsOf cfg w1 w2 c0 c1).chiMilli.toNat = chiMilliOf c0 c1 :=
  Nat.mod_eq_of_lt (chiMilliOf_lt hc)

theorem toNat_key_resultsOf (cfg : Config) (w1 w2 c0 c1 : Nat) :
    (resultsOf cfg w1 w2 c0 c1).key.toNat = min (c0 + c1 - 1) 16 :=
  Nat.mod_eq_of_lt (by unfold keyOf; omega)

theorem undef_resultsOf (cfg : Config) (w1 w2 : Nat) {c0 c1 : Nat} (hm : 1 ≤ c0 + c1) :
    (resultsOf cfg w1 w2 c0 c1).undef = true ↔ c0 = 0 ∨ c1 = 0 :=
  decide_eq_true_iff.trans (symbolsObserved_eq_one hm)

/-- The undefined test has the placeholders 0 for the critical value and the verdict (R146). -/
theorem resultsOf_of_one (cfg : Config) (w1 w2 : Nat) {c0 c1 : Nat} (h : symbolsObserved c0 c1 = 1) :
    (resultsOf cfg w1 w2 c0 c1).crit = 0 ∧ (resultsOf cfg w1 w2 c0 c1).uniform = false :=
  ⟨if_pos h, if_pos h⟩

/-- A defined test has the ROM's entry at KEY and the verdict against it (R145, R148). -/
theorem resultsOf_of_not_one (cfg : Config) (w1 w2 : Nat) {c0 c1 : Nat} (h : symbolsObserved c0 c1 ≠ 1) :
    (resultsOf cfg w1 w2 c0 c1).crit = critRom cfg (keyOf (c0 + c1)) ∧
      (resultsOf cfg w1 w2 c0 c1).uniform = verdict cfg c0 c1 :=
  ⟨if_neg h, if_neg h⟩

/-- Settles O44: the checks are the branches of `evaluate`; after them every field is a number its width holds. -/
theorem evaluationIsExact : Obligations.EvaluationIsExact := by
  intro cfg w1 w2 c0 c1
  refine ⟨fun hw => ?_, fun hw hc => ?_, fun hw1 hw hw2 hm hc => ?_⟩
  · exact if_pos (by omega)
  · rw [evaluate, if_neg (by omega), if_pos (by omega)]
  · obtain ⟨hperiod, hnum, hden, hdf⟩ := resultsOf_toNat cfg hw1 hw2 hc
    have hone := symbolsObserved_eq_one hm
    refine ⟨_, evaluate_eq_ok cfg w1 hw hm, rfl, hperiod, ?_, ?_, ?_, ?_, toNat_key_resultsOf cfg w1 w2 c0 c1,
      undef_resultsOf cfg w1 w2 hm, fun h => resultsOf_of_one cfg w1 w2 (hone.2 h)⟩
    · rw [hnum, chiNumOf, absDiff_eq_natAbs]
    · rw [hden]
      split
      · exact chiDenOf_of_one ‹_›
      · exact chiDenOf_of_both (by omega) (by omega)
    · rw [toNat_chiMilli_resultsOf cfg w1 w2 hc, hnum, hden, chiMilliOf]
    · rw [hdf]
      split
      · rw [hone.2 ‹_›]
      · rw [symbolsObserved_eq_two.2 (by omega)]

/-! The verdict (R148) against the rational statistic and against its truncation. -/

/-- The integer comparison of the verdict is that of the two rationals, both sides times `1000 * CHI_DEN` (R148). -/
theorem verdict_iff (cfg : Config) {c0 c1 : Nat} (hm : 1 ≤ c0 + c1) :
    verdict cfg c0 c1 = true ↔
      chiSquaredStatistic c0 c1 < ((critRom cfg (keyOf (c0 + c1))).toNat : ℚ) / 1000 := by
  have hden : (0 : ℚ) < chiDenOf c0 c1 := by exact_mod_cast hm.trans (le_chiDenOf c0 c1)
  rw [verdict, decide_eq_true_iff, chiSquaredStatistic_eq_div hm, div_lt_div_iff₀ hden (by norm_num),
    mul_comm critScale]
  norm_cast

/-- For an integer bound the fraction may be truncated first (R149). -/
theorem verdict_eq_truncated (cfg : Config) {c0 c1 : Nat} (hm : 1 ≤ c0 + c1) :
    verdict cfg c0 c1 = decide (chiMilliOf c0 c1 < (critRom cfg (keyOf (c0 + c1))).toNat) := by
  have hden : 0 < chiDenOf c0 c1 := hm.trans (le_chiDenOf c0 c1)
  rw [verdict, chiMilliOf, decide_eq_decide, Nat.div_lt_iff_lt_mul hden]

/-- Settles O45: with both symbols observed M is at least 2, so KEY is a key of the table. -/
theorem verdictIsStatisticBelowCriticalValue : Obligations.VerdictIsStatisticBelowCriticalValue := by
  intro cfg w1 w2 c0 c1 hw h0 h1
  have htwo : symbolsObserved c0 c1 = 2 := symbolsObserved_eq_two.2 ⟨h0, h1⟩
  have hkey := keyOf_in_table htwo
  obtain ⟨hcrit, huniform⟩ := resultsOf_of_not_one cfg w1 w2 (by omega : symbolsObserved c0 c1 ≠ 1)
  refine ⟨_, ⟨keyOf (c0 + c1) - 1, by omega⟩, evaluate_eq_ok cfg w1 hw (by omega), ?_, ?_, ?_⟩
  · exact Nat.sub_add_cancel hkey.1
  · exact hcrit.trans (dif_pos hkey)
  · rw [huniform, hcrit]
    exact verdict_iff cfg (by omega)

/-- Settles O46: a defined test has the verdict of R148, and CHI_MILLI holds the truncated statistic exactly. -/
theorem verdictFromTruncatedStatistic : Obligations.VerdictFromTruncatedStatistic := by
  intro cfg w1 w2 c0 c1 r hc hok hdef
  obtain ⟨-, hm, rfl⟩ := evaluate_ok hok
  obtain ⟨hcrit, huniform⟩ := resultsOf_of_not_one cfg w1 w2 (of_decide_eq_false hdef)
  rw [huniform, hcrit, toNat_chiMilli_resultsOf cfg w1 w2 hc, verdict_eq_truncated cfg hm]

end Sys2Proof.Machine
end

/-! ## What an instruction answers, busy and idle (43_commands.md R160 to R171) -/

section
namespace Sys2Proof.Machine

/-- Every write, command or not, is dropped while busy (R161). -/
theorem exec_of_busy {i : Instr} {s : State} (hw : weField (encode i) = true) (hb : s.busy = true) :
    exec i s = .next s.dropped := by
  rw [exec_write i s hw]
  exact hostWrite_of_busy _ _ hb

/-- In the IDLE phase every write lands, on the state with SV fallen (R161, R172). -/
theorem exec_of_idle {i : Instr} {s : State} (hw : weField (encode i) = true) (hb : s.busy = false) :
    exec i s = .next (landOf i s.settled) := by
  rw [exec_write i s hw]
  exact hostWrite_of_idle _ _ hb

/-- Settles O16: every write is a host write, which is dropped while busy. -/
theorem everyWriteIsDroppedWhileBusy : Obligations.EveryWriteIsDroppedWhileBusy :=
  fun _ _ => exec_of_busy

/-- Settles O25: NOP is a write with no effect of its own. -/
theorem nopChangesNothing : Obligations.NopChangesNothing := fun _ =>
  ⟨by decide, exec_of_idle (i := .nop) (weField_packT39 ..), exec_of_busy (weField_packT39 ..)⟩

/-- Settles O14: the read data is recorded in both phases, and SV falls in the IDLE phase only. -/
theorem readAnswersTheRegister : Obligations.ReadAnswersTheRegister := by
  intro s a
  refine ⟨_, exec_rd a s, ?_⟩
  cases hb : s.busy with
  | true => exact ⟨rfl, rfl, by simp, rfl⟩
  | false => exact ⟨rfl, rfl, by simp, rfl⟩

/-! ### Rejected commands (60_exceptions.md R195) -/

/-- No check of a command looks at SV. -/
theorem rejectionOf_settled (s : State) (i : Instr) : rejectionOf s.settled i = rejectionOf s i := by
  cases i <;> rfl

/-- A landing command whose check fails reports the error and does nothing else. -/
theorem landOf_of_rejection {s : State} {i : Instr} {e : Raised} (h : rejectionOf s i = some e) :
    landOf i s = raiseError e s := by
  cases i with
  | cmdIllegal v =>
    obtain rfl : ⟨.eCmd, 0⟩ = e := Option.some.inj h
    rfl
  | load =>
    have hc : checkConfig s.cfg s.ops = some e := h
    simp [landOf, landLoad, hc]
  | start =>
    have hc : checkStart s.cfg s.ops = some e := h
    simp [landOf, landStart, hc]
  | step =>
    simp only [rejectionOf] at h
    simp only [landOf, landStep]
    split_ifs at h ⊢ <;> cases h <;> rfl
  | run =>
    simp only [rejectionOf] at h
    simp only [landOf, landRun]
    split_ifs at h ⊢ <;> cases h <;> rfl
  | nop | eval | clear | wr | rd => cases h

theorem exec_of_rejection {s : State} {i : Instr} {e : Raised} (hb : s.busy = false)
    (h : rejectionOf s i = some e) : exec i s = .next (s.rejected e.cause e.einfo) := by
  obtain hw | ⟨a, rfl⟩ := weField_encode_or_rd i
  · rw [exec_of_idle hw hb, landOf_of_rejection ((rejectionOf_settled s i).trans h)]
    rfl
  · cases h

/-- Settles O26: the data of an illegal command is no opcode, and the command is always rejected. -/
theorem illegalCommandReportsECmd : Obligations.IllegalCommandReportsECmd := by
  have hexec (v : Word) (s : State) (hb : s.busy = false) :
      exec (.cmdIllegal v) s = .next (s.rejected .eCmd 0) := exec_of_rejection (e := ⟨.eCmd, 0⟩) hb rfl
  refine ⟨fun v hv => (decode_of_command v).trans (decodeCommand_of_ge v hv), hexec, _,
    hexec 0x10 State.reset rfl, by decide⟩

/-! ### Accepted commands (43_commands.md R165 to R171) -/

theorem landLoad_of_passed {s : State} (h : checkConfig s.cfg s.ops = none) : landLoad s = loadEffect s := by
  simp [landLoad, h]

/-- An accepted START leaves the load effect and a RUN phase with CHAIN (R166). -/
theorem landStart_of_passed {s : State} (h : checkStart s.cfg s.ops = none) :
    landStart s = { loadEffect s with seq := ⟨.run, s.ops.len, s.seq.ecnt, true⟩ } := by
  simp [landStart, h]

theorem landStep_of_passed {s : State} (hl : s.status.loaded = true) (hn : s.steps.toNat + 1 ≤ s.cfg.lmax) :
    landStep s = clearError (clearResults (genStep s)) := by
  simp [landStep, hl, Nat.not_lt.2 hn]

/-- An accepted RUN of no steps completes at once; any other leaves a RUN phase without CHAIN (R169). -/
theorem landRun_of_passed {s : State} (hl : s.status.loaded = true)
    (hn : s.steps.toNat + s.ops.len.toNat ≤ s.cfg.lmax) :
    landRun s = { clearError (clearResults s) with
      seq := if s.ops.len.toNat = 0 then s.seq else ⟨.run, s.ops.len, s.seq.ecnt, false⟩ } := by
  have h0 : s.ops.len = 0 ↔ s.ops.len.toNat = 0 := BitVec.toNat_eq
  simp only [landRun, hl, Bool.true_eq_false, if_false, Nat.not_lt.2 hn, h0]
  split <;> rfl

/-- Settles O31: the two checks are those of `rejectionOf`; the step overwrites SV. -/
theorem stepCommandIsOneGenerationStep : Obligations.StepCommandIsOneGenerationStep := by
  intro s hb
  refine ⟨by decide, fun hl => ?_, fun hl hn => ?_, fun hl hn => ?_⟩
  · exact exec_of_rejection (e := ⟨.eState, 0⟩) hb (by simp [rejectionOf, hl])
  · exact exec_of_rejection (e := ⟨.eLen, 0⟩) hb (by simp [rejectionOf, hl, hn])
  · rw [exec_of_idle (i := .step) (weField_packT39 ..) hb, landOf, landStep_of_passed (s := s.settled) hl hn]
    rfl

/-- Settles O32: the two checks are those of `rejectionOf`; the accepted RUN is `landRun_of_passed`. -/
theorem runChecksThenRunsLenSteps : Obligations.RunChecksThenRunsLenSteps := by
  intro s hb
  refine ⟨fun hl => ?_, fun hl hn => ?_, fun hl hn => ?_⟩
  · exact exec_of_rejection (e := ⟨.eState, 0⟩) hb (by simp [rejectionOf, hl])
  · exact exec_of_rejection (e := ⟨.eLen, 0⟩) hb (by simp [rejectionOf, hl, hn])
  · rw [exec_of_idle (i := .run) (weField_packT39 ..) hb, landOf, landRun_of_passed (s := s.settled) hl hn]
    rfl

/-- Settles O33: EVAL has no check; what it writes is read off `landEval`. -/
theorem evalIsAcceptedInEveryIdleState : Obligations.EvalIsAcceptedInEveryIdleState := fun _ hb =>
  exec_of_idle (i := .eval) (weField_packT39 ..) hb

/-- Settles O28: a passed check bounds the lengths and the values, so the truncations of LOAD lose nothing. -/
theorem loadCopiesOperandsExactly : Obligations.LoadCopiesOperandsExactly := by
  intro s hb hw
  refine ⟨by decide, fun e he => exec_of_rejection (i := .load) hb he, fun hc => ?_⟩
  obtain ⟨⟨hbad1, hbad2⟩, ⟨hdif1, hdif2⟩, hstr1, hstr2⟩ := checkConfig_none hc
  obtain ⟨he1, hlen1, -⟩ := loadedEngine_of_checked hw hbad1 hdif1 hstr1
  obtain ⟨he2, hlen2, -⟩ := loadedEngine_of_checked hw hbad2 hdif2 hstr2
  refine ⟨hlen1, hlen2, ?_⟩
  rw [exec_of_idle (i := .load) (weField_packT39 ..) hb, landOf, landLoad_of_passed (s := s.settled) hc, ← he1, ← he2]
  rfl

/-- The checks of START after a passed configuration check: the length alone (R166). -/
theorem checkStart_of_passed {cfg : Config} {o : OperandRegs} (h : checkConfig cfg o = none) :
    checkStart cfg o = if o.len.toNat = 0 ∨ cfg.lmax < o.len.toNat then some ⟨.eLen, 0⟩ else none := by
  have h0 : o.len = 0 ↔ o.len.toNat = 0 := BitVec.toNat_eq
  simp only [checkStart, h, h0, ite_or]

theorem checkStart_eq_none {cfg : Config} {o : OperandRegs} (h : checkConfig cfg o = none) (h1 : 1 ≤ o.len.toNat)
    (hn : o.len.toNat ≤ cfg.lmax) : checkStart cfg o = none := by
  rw [checkStart_of_passed h, if_neg (by omega)]

/-- Settles O29: the checks are those of `checkStart`; an accepted START is the answer of LOAD with a sequencer. -/
theorem startChecksThenLoadsAndRuns : Obligations.StartChecksThenLoadsAndRuns := by
  intro s hb
  refine ⟨fun e he => ?_, fun hc => ⟨fun h0 => ?_, fun hn => ?_, fun h1 hn => ?_⟩⟩
  · exact exec_of_rejection (i := .start) hb (by simp [rejectionOf, checkStart, he])
  · exact exec_of_rejection (i := .start) (e := ⟨.eLen, 0⟩) hb ((checkStart_of_passed hc).trans (if_pos (.inl h0)))
  · exact exec_of_rejection (i := .start) (e := ⟨.eLen, 0⟩) hb ((checkStart_of_passed hc).trans (if_pos (.inr hn)))
  · refine ⟨_, exec_of_idle (i := .load) (weField_packT39 ..) hb, ?_⟩
    rw [exec_of_idle (i := .start) (weField_packT39 ..) hb, landOf, landOf, landLoad_of_passed (s := s.settled) hc,
      landStart_of_passed (s := s.settled) (checkStart_eq_none hc h1 hn)]

end Sys2Proof.Machine
end

/-! ## The configuration check (43_commands.md R164) -/

section
namespace Sys2Proof.Machine

theorem widthBad_eq_true_iff {wmax : Nat} {plen slen : Word} :
    widthBad wmax plen slen = true ↔ ¬LengthsInRange wmax plen slen := by
  rw [← widthBad_eq_false_iff, Bool.not_eq_false]

theorem lengthsDiffer_eq_true_iff {plen slen : Word} : lengthsDiffer plen slen = true ↔ plen ≠ slen :=
  decide_eq_true_iff

theorem strayBits_eq_true_iff {p plen s slen : Word} :
    strayBits p plen s slen = true ↔ StrayBit p plen ∨ StrayBit s slen := by
  rw [← Bool.not_eq_false, strayBits_eq_false_iff, ← not_or, not_not]

/-- EINFO names the failing LFSRs bit by bit (R45). -/
theorem einfoOf_eq_iff {bad1 bad2 : Bool} {e : BitVec 2} :
    einfoOf bad1 bad2 = e ↔ (e.getLsbD 0 = true ↔ bad1 = true) ∧ (e.getLsbD 1 = true ↔ bad2 = true) := by
  revert bad1 bad2 e
  decide

/-- Check 1 is reported when it fails for some LFSR. -/
theorem checkConfig_eq_eWidth_iff {cfg : Config} {o : OperandRegs} {e : BitVec 2} :
    checkConfig cfg o = some ⟨.eWidth, e⟩ ↔
      (widthBad cfg.wmax o.p1len o.s1len = true ∨ widthBad cfg.wmax o.p2len o.s2len = true) ∧
      einfoOf (widthBad cfg.wmax o.p1len o.s1len) (widthBad cfg.wmax o.p2len o.s2len) = e := by
  simp only [checkConfig, Bool.or_eq_true]
  split_ifs <;> simp [*]

/-- Check 2 is reported when check 1 passes and it fails for some LFSR. -/
theorem checkConfig_eq_eMismatch_iff {cfg : Config} {o : OperandRegs} {e : BitVec 2} :
    checkConfig cfg o = some ⟨.eMismatch, e⟩ ↔
      ¬(widthBad cfg.wmax o.p1len o.s1len = true ∨ widthBad cfg.wmax o.p2len o.s2len = true) ∧
      (lengthsDiffer o.p1len o.s1len = true ∨ lengthsDiffer o.p2len o.s2len = true) ∧
      einfoOf (lengthsDiffer o.p1len o.s1len) (lengthsDiffer o.p2len o.s2len) = e := by
  simp only [checkConfig, Bool.or_eq_true]
  split_ifs <;> simp [*]

/-- Check 3 is reported when the first two pass and it fails for some LFSR. -/
theorem checkConfig_eq_eStray_iff {cfg : Config} {o : OperandRegs} {e : BitVec 2} :
    checkConfig cfg o = some ⟨.eStray, e⟩ ↔
      ¬(widthBad cfg.wmax o.p1len o.s1len = true ∨ widthBad cfg.wmax o.p2len o.s2len = true) ∧
      ¬(lengthsDiffer o.p1len o.s1len = true ∨ lengthsDiffer o.p2len o.s2len = true) ∧
      (strayBits o.p1 o.p1len o.s1 o.s1len = true ∨ strayBits o.p2 o.p2len o.s2 o.s2len = true) ∧
      einfoOf (strayBits o.p1 o.p1len o.s1 o.s1len) (strayBits o.p2 o.p2len o.s2 o.s2len) = e := by
  simp only [checkConfig, Bool.or_eq_true]
  split_ifs <;> simp [*]

/-- Settles O27: one condition for each outcome of the check, put in terms of the lengths and the bits. -/
theorem configurationCheckOrder : Obligations.ConfigurationCheckOrder := by
  intro cfg o e
  rw [checkConfig_eq_eWidth_iff, checkConfig_eq_eMismatch_iff, checkConfig_eq_eStray_iff, checkConfig_eq_none_iff]
  simp only [einfoOf_eq_iff, widthBad_eq_true_iff, lengthsDiffer_eq_true_iff, strayBits_eq_true_iff, not_or, not_not,
    ne_eq, and_assoc, and_self]

end Sys2Proof.Machine
end

/-! ## A write to the register map, and CLEAR (43_commands.md R161, R171) -/

section
namespace Sys2Proof.Machine

/-- The word of a write: its fields shifted to their places (R80). -/
theorem packT39_true_eq_or (a : RegNo) (d : Word) :
    packT39 true a d = ((1 : T39) <<< 38) ||| (a.setWidth 39 <<< 32) ||| d.setWidth 39 := by
  have hwe : ((1 : T39) <<< 38) = BitVec.twoPow 39 38 := by decide
  refine BitVec.eq_of_getLsbD_eq fun i hi => ?_
  rw [getLsbD_packT39, hwe, BitVec.getLsbD_or, BitVec.getLsbD_or, BitVec.getLsbD_twoPow, BitVec.getLsbD_shiftLeft,
    BitVec.getLsbD_setWidth, BitVec.getLsbD_setWidth]
  by_cases hdata : i < 32
  · have h38 : 38 ≠ i := by omega
    simp [hdata, h38, hi]
  · by_cases haddr : i < 38
    · have h38 : 38 ≠ i := by omega
      have h39 : i - 32 < 39 := by omega
      simp [hdata, haddr, h38, hi, h39, BitVec.getLsbD_of_ge d i (by omega)]
    · obtain rfl : i = 38 := by omega
      simp

/-- At CMD the data selects a command, which then does what it does as an instruction (R83). -/
theorem landCommand_decodeCommand (v : Word) : landCommand (decodeCommand v) = landOf (decodeCommand v) := by
  unfold decodeCommand
  split_ifs <;> rfl

theorem exec_wr_cmd (v : Word) (s : State) : exec (.wr cmdNo v) s = exec (decodeCommand v) s := by
  have hw : weField (encode (decodeCommand v)) = true := by rw [encode_decodeCommand, weField_packT39]
  rw [exec_write _ s hw, exec_write (.wr cmdNo v) s (weField_packT39 ..), ← landCommand_decodeCommand]
  rfl

/-- No other number names an RW register. -/
theorem regName_injOn_rw : ∀ a ∈ rwNumbers, ∀ b, regName b = regName a → b = a := by decide

theorem readName_writeName_same {n : RegName} (hn : n ∈ rwNames) (v : Word) (s : State) :
    readName { s with ops := writeName v s.ops n } n = v := by
  cases n <;> simp [rwNames] at hn <;> rfl

/-- A write to one name leaves what every other name reads. -/
theorem readName_writeName_of_ne {k n : RegName} (h : n ≠ k) (v : Word) (s : State) :
    readName { s with ops := writeName v s.ops k } n = readName s n := by
  by_cases hn : n ∈ rwNames
  · by_cases hk : k ∈ rwNames
    · cases n <;> simp [rwNames] at hn <;> cases k <;> simp [rwNames] at hk h <;> rfl
    · rw [writeName_of_not_mem hk]
  · cases n <;> simp [rwNames] at hn <;> rfl

/-- SV shows in LASTOUT only (R39). -/
theorem readName_settled {n : RegName} (h : n ≠ .lastout) (s : State) : readName s.settled n = readName s n := by
  cases n <;> simp at h <;> rfl

/-- Settles O15: dropped while busy; at CMD the selected command; else `writeOperand`, which of the registers the map
names reaches an RW one alone. -/
theorem writeLandsOrIsDropped : Obligations.WriteLandsOrIsDropped := by
  intro s a v
  refine ⟨packT39_true_eq_or a v, exec_of_busy (weField_packT39 ..), fun hb => ?_⟩
  split_ifs with hcmd hrw
  · exact hcmd ▸ exec_wr_cmd v s
  · have hland : landOf (.wr a v) s.settled = writeOperand a v s.settled := if_neg hcmd
    refine ⟨writeOperand a v s.settled, ?_, ?_, fun b hba hb1a => ?_, rfl⟩
    · rw [exec_of_idle (i := .wr a v) (weField_packT39 ..) hb, hland]
    · exact readName_writeName_same ((regName_mem_rwNames a).2 hrw) v s.settled
    · have hlast : ∀ b : RegNo, b ≠ 0x1A → regName b ≠ .lastout := by decide
      exact (readName_writeName_of_ne (mt (regName_injOn_rw a hrw b) hba) v s.settled).trans
        (readName_settled (hlast b hb1a) s)
  · exact exec_wr_ignored hcmd hrw v hb

/-- After CLEAR the registers that are neither constants nor operands read 0 (R171). -/
theorem readName_landClear {n : RegName} (hc : n.isConstant = false) (hn : n ∉ rwNames) (s : State) :
    readName (landClear s) n = 0 := by
  rw [← readName_reset hc]
  cases n <;> simp [RegName.isConstant] at hc <;> simp [rwNames] at hn <;> rfl

/-- The operand registers read the operand group. -/
theorem readName_of_ops {n : RegName} (hn : n ∈ rwNames) {s t : State} (h : t.ops = s.ops) :
    readName t n = readName s n := by
  cases n <;> simp [rwNames] at hn <;> simp [readName, h]

/-- Settles O34: each number names a constant, an operand, or a register of a group at its reset value. -/
theorem clearKeepsOnlyOperands : Obligations.ClearKeepsOnlyOperands := by
  intro s
  refine ⟨by decide, exec_of_busy (i := .clear) (weField_packT39 ..), fun hb =>
    ⟨_, exec_of_idle (i := .clear) (weField_packT39 ..) hb, rfl, fun a => ?_⟩⟩
  have hconst := isConstant_regName a
  have hrw := regName_mem_rwNames a
  split_ifs with h
  · obtain h | h | h := h
    · exact readName_of_isConstant (by simp [hconst, h]) rfl
    · exact readName_of_isConstant (by simp [hconst, h]) rfl
    · exact readName_of_ops (hrw.2 h) rfl
  · rw [not_or, not_or] at h
    obtain ⟨hlo, hhi, hnot⟩ := h
    exact readName_landClear (by simp [hconst, hlo, hhi]) (mt hrw.1 hnot) s.settled

end Sys2Proof.Machine
end

/-! ## One edge (43_commands.md R172, R176) -/

section
namespace Sys2Proof.Machine

/-- Settles O6: the pins' word decodes to an instruction of the table, which answers a next state. -/
theorem stepRunsTheSampledTransaction : Obligations.StepRunsTheSampledTransaction := by
  intro s hr hv
  obtain ⟨hwf, -⟩ := everyWordIsOneTransaction (packT39 (nextPins s).hWe (nextPins s).hAddr (nextPins s).hWdata)
  obtain ⟨t, ht⟩ := exec_next (decode (packT39 (nextPins s).hWe (nextPins s).hAddr (nextPins s).hWdata)) (takePins s)
  refine ⟨hwf, t, ht, ?_⟩
  rw [step_of_transaction s hr hv, ht, finishEdge]

/-- Settles O7: the idle edge of `step_of_idle_nothing`, written out. -/
theorem idleEdgeOnlyLowersSv : Obligations.IdleEdgeOnlyLowersSv := step_of_idle_nothing

theorem microStep_of_run {s : State} (hp : s.seq.phase = .run) : microStep s = runEdge s := by
  simp only [microStep, hp]

theorem microStep_of_eval {s : State} (hp : s.seq.phase = .eval) : microStep s = evalEdge s := by
  simp only [microStep, hp]

/-- The sequencer after an edge of a RUN phase: the last one starts the EVAL phase of a START or ends a RUN. -/
theorem runEdge_seq (s : State) :
    (runEdge s).seq =
      if s.seq.rem = 1 then
        if s.seq.chain then ⟨.eval, 0, s.cfg.tEval, true⟩ else ⟨.idle, 0, s.seq.ecnt, false⟩
      else { s.seq with rem := s.seq.rem - 1 } := by
  by_cases h1 : s.seq.rem = 1
  · cases hc : s.seq.chain <;> simp [runEdge, endOfRun, h1, hc]
  · exact (if_neg h1).trans (if_neg h1).symm

/-- Settles O8: a busy edge is one micro-step, in a RUN phase one generation step and `runEdge_seq`. -/
theorem runEdgeIsOneGenerationStep : Obligations.RunEdgeIsOneGenerationStep := by
  intro s hp hr
  have hb : s.busy = true := (busy_eq_true_iff s).2 (by simp [hp])
  rw [step_of_busy s hb hr, microStep_of_run (s := busyStart s) hp, ← runEdge_seq s]
  rfl

theorem evalEdge_of_countdown {s : State} (h : 1 < s.seq.ecnt) :
    evalEdge s = { lowerSv s with seq := { s.seq with ecnt := s.seq.ecnt - 1 } } := by
  simp [evalEdge, h]

theorem evalEdge_of_last {s : State} (h : s.seq.ecnt ≤ 1) :
    evalEdge s = { applyEvaluate (lowerSv s) with seq := ⟨.idle, s.seq.rem, 0, false⟩ } := by
  simp [evalEdge, Nat.not_lt.2 h]

theorem applyEvaluate_of_ok {s : State} {r : Results}
    (h : evaluate s.cfg s.lfsr1.w.toNat s.lfsr2.w.toNat s.acc.c0.toNat s.acc.c1.toNat = .ok r) :
    applyEvaluate s = clearError { s with res := r } := by
  simp only [applyEvaluate, h]

theorem applyEvaluate_of_error {s : State} {e : Raised}
    (h : evaluate s.cfg s.lfsr1.w.toNat s.lfsr2.w.toNat s.acc.c0.toNat s.acc.c1.toNat = .error e) :
    applyEvaluate s = raiseError e (clearResults s) := by
  simp only [applyEvaluate, h]

/-- Settles O9: a busy edge is one micro-step, in an EVAL phase the countdown or, at its end, `Evaluate`. -/
theorem evalEdgeCountsDownThenEvaluates : Obligations.EvalEdgeCountsDownThenEvaluates := by
  intro s hp hr
  have hb : s.busy = true := (busy_eq_true_iff s).2 (by simp [hp])
  refine ⟨_, step_of_busy s hb hr, ?_⟩
  rw [microStep_of_eval (s := busyStart s) hp]
  by_cases hc : 1 < s.seq.ecnt
  · rw [evalEdge_of_countdown (s := busyStart s) hc]
    exact ⟨rfl, rfl, rfl, fun _ => ⟨rfl, rfl, rfl, rfl, rfl⟩, fun h => absurd hc (Nat.not_lt.2 h)⟩
  · rw [evalEdge_of_last (s := busyStart s) (Nat.not_lt.1 hc)]
    cases he : evaluate s.cfg s.lfsr1.w.toNat s.lfsr2.w.toNat s.acc.c0.toNat s.acc.c1.toNat with
    | ok r =>
      rw [applyEvaluate_of_ok (s := lowerSv (busyStart s)) he]
      exact ⟨rfl, rfl, rfl, fun h => absurd h hc, fun _ => ⟨rfl, rfl, rfl, rfl, rfl⟩⟩
    | error e =>
      rw [applyEvaluate_of_error (s := lowerSv (busyStart s)) he]
      exact ⟨rfl, rfl, rfl, fun h => absurd h hc, fun _ => ⟨rfl, rfl, rfl, rfl, rfl⟩⟩

/-! ### The phases (R176) -/

/-- A micro-step leaves a phase only at the last edge of a RUN or of an EVAL. -/
theorem microStep_phase (s : State) :
    (microStep s).seq.phase = s.seq.phase ∨
      (s.seq.phase = .run ∧ s.seq.rem = 1 ∧ (microStep s).seq.phase = if s.seq.chain then .eval else .idle) ∨
      (s.seq.phase = .eval ∧ s.seq.ecnt ≤ 1 ∧ (microStep s).seq.phase = .idle) := by
  cases hp : s.seq.phase with
  | idle => exact .inl (by simp [microStep, hp])
  | run =>
    rw [microStep_of_run hp, runEdge_seq]
    by_cases h1 : s.seq.rem = 1
    · exact .inr (.inl ⟨rfl, h1, by cases s.seq.chain <;> simp [h1]⟩)
    · exact .inl (by rw [if_neg h1, hp])
  | eval =>
    rw [microStep_of_eval hp]
    by_cases hc : 1 < s.seq.ecnt
    · exact .inl (by rw [evalEdge_of_countdown hc, hp])
    · have hlast := Nat.not_lt.1 hc
      exact .inr (.inr ⟨rfl, hlast, by rw [evalEdge_of_last hlast]⟩)

/-- In the IDLE phase a landing write leaves PHASE, or begins a RUN phase with steps left, or an EVAL phase. -/
theorem Lands.phase {s t : State} {i : Instr} (h : Lands s i t) (hp : s.seq.phase = .idle) :
    t.seq.phase = .idle ∨ (t.seq.phase = .run ∧ 1 ≤ t.seq.rem.toNat ∧ (i = .start ∨ i = .run)) ∨
      (t.seq.phase = .eval ∧ i = .eval) := by
  cases h with
  | start hc =>
    obtain ⟨-, h0, -⟩ := checkStart_none hc
    exact .inr (.inl ⟨rfl, one_le_toNat h0, .inl rfl⟩)
  | run hl hn h0 => exact .inr (.inl ⟨rfl, one_le_toNat h0, .inr rfl⟩)
  | eval => exact .inr (.inr ⟨rfl, rfl⟩)
  | clear => exact .inl rfl
  | nop | write | rejected | load | step | runOfNone => exact .inl hp

/-- Settles O50, by the cases of an edge: `microStep_phase` while busy, `Lands.phase` for a landing write. -/
theorem phaseChangesOnlyAsStated : Obligations.PhaseChangesOnlyAsStated := by
  intro s
  obtain ⟨t, ht, he⟩ := step_edge s
  refine ⟨t, ht, ?_⟩
  cases he with
  | reset hr => exact .inr (.inl ⟨rfl, hr⟩)
  | busy hr hb h =>
    obtain rfl : microStep (busyStart s) = t := by simpa [step_of_busy s hb hr] using ht
    obtain h | h | h := microStep_phase (busyStart s)
    · exact .inl h
    · exact .inr (.inr (.inr (.inr (.inl h))))
    · exact .inr (.inr (.inr (.inr (.inr h))))
  | quiet hr hb hq => exact .inl rfl
  | write hr hb hv hw ht h =>
    have hp : s.seq.phase = .idle := (busy_eq_false_iff s).1 hb
    obtain h | ⟨h, hrem, hi⟩ | ⟨h, hi⟩ := h.phase hp
    · exact .inl (h.trans hp.symm)
    · exact .inr (.inr (.inl ⟨hp, h, hrem, _, ht, hi⟩))
    · exact .inr (.inr (.inr (.inl ⟨hp, h, _, ht, hi⟩)))

/-! ### How long a busy phase lasts (R176, 70_reset_and_hazards.md R235) -/

/-- A busy phase has edges left (R41, R42). -/
def State.Counting (s : State) : Prop :=
  1 ≤ s.cfg.tEval ∧ (s.seq.phase = .run → 1 ≤ s.seq.rem.toNat) ∧ (s.seq.phase = .eval → 1 ≤ s.seq.ecnt)

/-- The edges until the block is idle, short of a reset: the rest of a RUN phase, with the EVAL phase of a START after
it, or the rest of an EVAL phase. -/
def edgesLeft (s : State) : Nat :=
  match s.seq.phase with
  | .idle => 0
  | .run => if s.seq.chain then s.seq.rem.toNat + s.cfg.tEval else s.seq.rem.toNat
  | .eval => s.seq.ecnt

theorem counting_of_idle {s : State} (ht : 1 ≤ s.cfg.tEval) (hp : s.seq.phase = .idle) :
    s.Counting ∧ edgesLeft s = 0 := by
  simp [State.Counting, edgesLeft, hp, ht]

theorem counting_of_run {s : State} (ht : 1 ≤ s.cfg.tEval) (hp : s.seq.phase = .run) (hr : 1 ≤ s.seq.rem.toNat) :
    s.Counting ∧ edgesLeft s = if s.seq.chain then s.seq.rem.toNat + s.cfg.tEval else s.seq.rem.toNat := by
  simp [State.Counting, edgesLeft, hp, ht, hr]

theorem counting_of_eval {s : State} (ht : 1 ≤ s.cfg.tEval) (hp : s.seq.phase = .eval) (he : 1 ≤ s.seq.ecnt) :
    s.Counting ∧ edgesLeft s = s.seq.ecnt := by
  simp [State.Counting, edgesLeft, hp, ht, he]

theorem State.Counting.busy_iff {s : State} (h : s.Counting) : s.busy = true ↔ edgesLeft s ≠ 0 := by
  obtain ⟨hteval, hrun, heval⟩ := h
  rw [busy_eq_true_iff]
  cases hp : s.seq.phase with
  | idle => simp [(counting_of_idle hteval hp).2]
  | run =>
    have hrem := hrun hp
    have hne : edgesLeft s ≠ 0 := by
      rw [(counting_of_run hteval hp hrem).2]
      split_ifs <;> omega
    simpa using hne
  | eval =>
    have hecnt := heval hp
    rw [(counting_of_eval hteval hp hecnt).2]
    simpa using Nat.ne_of_gt hecnt

/-- An edge of a RUN phase uses up one of the edges left: the last one leaves T_EVAL of a START, none of a RUN. -/
theorem runEdge_counts_down {s : State} (ht : 1 ≤ s.cfg.tEval) (hp : s.seq.phase = .run) (hr : 1 ≤ s.seq.rem.toNat) :
    (runEdge s).Counting ∧ edgesLeft (runEdge s) + 1 = edgesLeft s := by
  rw [(counting_of_run ht hp hr).2]
  have hseq := runEdge_seq s
  by_cases h1 : s.seq.rem = 1
  · have hone : s.seq.rem.toNat = 1 := by rw [h1]; rfl
    rw [if_pos h1] at hseq
    cases hc : s.seq.chain with
    | false =>
      obtain ⟨hcount, hleft⟩ := counting_of_idle (s := runEdge s) ht (by simp [hseq, hc])
      exact ⟨hcount, by simp [hleft, hone]⟩
    | true =>
      have hecnt : (runEdge s).seq.ecnt = s.cfg.tEval := by simp [hseq, hc]
      obtain ⟨hcount, hleft⟩ := counting_of_eval (s := runEdge s) ht (by simp [hseq, hc]) (hecnt ▸ ht)
      exact ⟨hcount, by rw [hleft, hecnt, hone, if_pos rfl, Nat.add_comm]⟩
  · have hne : s.seq.rem.toNat ≠ 1 := fun h => h1 (BitVec.eq_of_toNat_eq h)
    rw [if_neg h1] at hseq
    have hrem : (runEdge s).seq.rem.toNat = s.seq.rem.toNat - 1 := by rw [hseq]; exact toNat_pred _ hr
    obtain ⟨hcount, hleft⟩ := counting_of_run (s := runEdge s) ht (by rw [hseq]; exact hp) (by omega)
    have hchain : (runEdge s).seq.chain = s.seq.chain := by rw [hseq]
    have hcfg : (runEdge s).cfg = s.cfg := rfl
    refine ⟨hcount, ?_⟩
    rw [hleft, hchain, hrem, hcfg]
    split_ifs <;> omega

theorem evalEdge_counts_down {s : State} (ht : 1 ≤ s.cfg.tEval) (hp : s.seq.phase = .eval) (he : 1 ≤ s.seq.ecnt) :
    (evalEdge s).Counting ∧ edgesLeft (evalEdge s) + 1 = edgesLeft s := by
  rw [(counting_of_eval ht hp he).2]
  by_cases hc : 1 < s.seq.ecnt
  · rw [evalEdge_of_countdown hc]
    obtain ⟨hcount, hleft⟩ := counting_of_eval (s := { lowerSv s with seq := { s.seq with ecnt := s.seq.ecnt - 1 } })
      ht hp (Nat.le_sub_one_of_lt hc)
    exact ⟨hcount, hleft ▸ Nat.sub_add_cancel he⟩
  · have hlast := Nat.not_lt.1 hc
    have hcfg : (evalEdge s).cfg = s.cfg := (evalEdge_microSteps s hp).frame.1
    obtain ⟨hcount, hleft⟩ := counting_of_idle (s := evalEdge s) (hcfg ▸ ht) (by rw [evalEdge_of_last hlast])
    exact ⟨hcount, by omega⟩

/-- A micro-step of a busy block uses up one of the edges left. -/
theorem microStep_counts_down {s : State} (h : s.Counting) (hb : s.busy = true) :
    (microStep s).Counting ∧ edgesLeft (microStep s) + 1 = edgesLeft s := by
  obtain ⟨hteval, hrun, heval⟩ := h
  cases hp : s.seq.phase with
  | idle => exact absurd hp ((busy_eq_true_iff s).1 hb)
  | run => exact microStep_of_run hp ▸ runEdge_counts_down hteval hp (hrun hp)
  | eval => exact microStep_of_eval hp ▸ evalEdge_counts_down hteval hp (heval hp)

/-- The coming edge of a schedule without resets presents none. -/
theorem nextPins_of_noReset {n : Nat} {s : State} (h : noReset (n + 1) s.inputs) :
    (nextPins s).rst = false ∧ noReset n s.inputs.tail := by
  unfold nextPins
  cases hin : s.inputs with
  | nil => exact ⟨rfl, by simp [noReset]⟩
  | cons p ps =>
    rw [hin, noReset, List.take_succ_cons, List.forall_mem_cons] at h
    exact h

/-- Short of a reset a block is busy for exactly the edges left, whatever the host presents. -/
theorem busy_until_edgesLeft (n : Nat) {s : State} (hc : s.Counting) (hn : edgesLeft s = n)
    (hr : noReset n s.inputs) :
    (∀ k, k < n → (afterSteps k s).busy = true) ∧ (afterSteps n s).busy = false := by
  induction n generalizing s with
  | zero =>
    refine ⟨nofun, Bool.eq_false_iff.2 fun hb => ?_⟩
    exact hc.busy_iff.1 hb hn
  | succ n ih =>
    have hb : s.busy = true := hc.busy_iff.2 (by omega)
    obtain ⟨hrst, hrest⟩ := nextPins_of_noReset hr
    have hstep := step_of_busy s hb hrst
    have hinputs : (microStep (busyStart s)).inputs = s.inputs.tail := (microStep_microSteps (busyStart s)).inputs
    obtain ⟨hcount, hleft⟩ := microStep_counts_down (s := busyStart s) hc hb
    have hn' : edgesLeft (busyStart s) = n + 1 := hn
    obtain ⟨hbusy, hidle⟩ := ih hcount (by omega) (hinputs ▸ hrest)
    refine ⟨fun k hk => ?_, afterSteps_succ n hstep ▸ hidle⟩
    cases k with
    | zero => exact hb
    | succ k => exact afterSteps_succ k hstep ▸ hbusy k (by omega)

/-- Settles O52: in a RUN phase the edges left are REM, and T_EVAL more with CHAIN. -/
theorem runPhaseEndsOnTime : Obligations.RunPhaseEndsOnTime := by
  intro s hp hrem hteval n hr
  obtain ⟨hcount, hleft⟩ := counting_of_run hteval hp hrem
  exact busy_until_edgesLeft n hcount hleft hr

end Sys2Proof.Machine
end

/-! ## The generation step as numbers and lists (43_commands.md R167) -/

section
namespace Sys2Proof.Machine

/-- An engine that fits its width steps as the list of its bits does (R101, R102). -/
theorem engineStep_list {wmax : Nat} {e : Engine} (h : e.Fits wmax) (h1 : 1 ≤ e.w.toNat) (hw : wmax ≤ 32) :
    listStep (bitsOf e.w.toNat e.r) (bitsOf e.w.toNat e.t) =
      (engineOut e, bitsOf e.w.toNat (engineStep e).r) := by
  obtain ⟨hle, hr, ht⟩ := h
  exact (registerStepIsTheListStep e.r e.t e.w.toNat h1 (hle.trans hw) hr ht).1

/-- Settles O30: both engines by `engineStep_list`, the counters by `genStep_counters`, the rest is the definition
of the step. -/
theorem generationStepEffect : Obligations.GenerationStepEffect := by
  intro s hi hl hn
  obtain ⟨⟨⟨-, hwmax⟩, ⟨-, hlmax⟩, -⟩, ⟨hfit1, hfit2, hwidths, -⟩, hcount, -⟩ := hi
  obtain ⟨hw1, hw2⟩ := hwidths hl
  obtain ⟨hsteps, hm, h0, h1⟩ := genStep_counters hcount (by omega)
  refine ⟨_, _, _, _, engineStep_list hfit1 hw1 hwmax, engineStep_list hfit2 hw2 hwmax, rfl, rfl, rfl, hsteps, hm, h0,
    h1, rfl, rfl, ?_, rfl⟩
  cases hc : engineOut s.lfsr2 <;> simp [hc]

end Sys2Proof.Machine
end

/-! ## Commands of a quiet host in one piece (43_commands.md R173 to R175) -/

section
namespace Sys2Proof.Machine

/-! ### The block at a command's edge and after it -/

/-- What a landing write does to the block depends on the block alone. -/
theorem landCommand_block (i : Instr) (s : State) : (landCommand i s).block = landCommand i s.block := by
  cases i with
  | start =>
    simp only [landCommand, landStart, State.block_cfg, State.block_ops]
    cases checkStart s.cfg s.ops <;> rfl
  | load =>
    simp only [landCommand, landLoad, State.block_cfg, State.block_ops]
    cases checkConfig s.cfg s.ops <;> rfl
  | step => simp only [landCommand, landStep, apply_ite State.block]; rfl
  | run => simp only [landCommand, landRun, apply_ite State.block]; rfl
  | nop | eval | clear | cmdIllegal | wr | rd => rfl

theorem landOf_block (i : Instr) (s : State) : (landOf i s).block = landOf i s.block := by
  cases i with
  | start => exact landCommand_block .start s
  | load => exact landCommand_block .load s
  | step => exact landCommand_block .step s
  | run => exact landCommand_block .run s
  | wr a v =>
    simp only [landOf, landWrite]
    split_ifs
    · exact landCommand_block _ s
    · rfl
  | nop | eval | clear | cmdIllegal | rd => rfl

theorem Lands.inputs {s t : State} {i : Instr} (h : Lands s i t) : t.inputs = s.inputs := by
  cases h <;> rfl

/-- Every edge takes one sample off the host's schedule. -/
theorem inputs_of_step {s t : State} (h : step s = .next t) : t.inputs = s.inputs.tail := by
  cases edge_of_step h with
  | reset hr => rfl
  | busy hr hb h => exact h.inputs
  | quiet hr hb hq => rfl
  | write hr hb hv hw ht h => exact h.inputs

theorem afterSteps_inputs (n : Nat) (s : State) : (afterSteps n s).inputs = s.inputs.drop n := by
  induction n generalizing s with
  | zero => rfl
  | succ n ih =>
    obtain ⟨t, ht⟩ := step_next s
    rw [afterSteps_succ n ht, ih, inputs_of_step ht, List.drop_tail]

/-- The edge at which an idle block is given a command. -/
theorem step_of_command {i : Instr} {s : State} {rest : List PinSample} (hb : s.busy = false)
    (hw : weField (encode i) = true) (hwf : i.wf = true) (hin : s.inputs = pinsOfWord (encode i) :: rest) :
    step s = .next (landOf i (lowerSv (takePins s))) := by
  have hpins : nextPins s = pinsOfWord (encode i) := by rw [nextPins, hin]; rfl
  have hdecode : decode (packT39 true (addrField (encode i)) (wdataField (encode i))) = i := by
    rw [← hw, packT39_fields]
    exact decodeOfEncodeIsIdentity i hwf
  rw [step_of_idle_write s hb (by rw [hpins]; rfl) (by rw [hpins]; rfl) (by rw [hpins]; exact hw), hpins]
  exact congrArg (fun j => Host.Outcome.next (landOf j (lowerSv (takePins s)))) hdecode

/-- A command and then a quiet host: the command's effect, and then the block's micro-steps alone. -/
theorem afterSteps_block_of_command {i : Instr} {s : State} {rest : List PinSample} {n : Nat} (hb : s.busy = false)
    (hw : weField (encode i) = true) (hwf : i.wf = true) (hin : s.inputs = pinsOfWord (encode i) :: rest)
    (hq : quietInputs n rest) :
    (afterSteps (n + 1) s).block = microStep^[n] (landOf i (lowerSv s.block)) := by
  have hstep := step_of_command hb hw hwf hin
  have hrest : (landOf i (lowerSv (takePins s))).inputs = rest := by
    rw [inputs_of_step hstep, hin, List.tail_cons]
  rw [afterSteps_succ n hstep, afterSteps_block_of_quiet n _ (hrest ▸ hq), landOf_block]
  rfl

/-! ### The phases in one piece (R173) -/

/-- A generation step writes SV, so it does not matter that it fell before. -/
theorem genStep_lowerSv (s : State) : genStep (lowerSv s) = genStep s := rfl

theorem genSteps_lowerSv {n : Nat} (hn : 1 ≤ n) (s : State) : genSteps n (lowerSv s) = genSteps n s := by
  obtain ⟨n, rfl⟩ := Nat.exists_eq_add_of_le' hn
  rw [genSteps_succ, genSteps_succ, genStep_lowerSv]

/-- Generation steps leave the sequencer and everything it does not concern. -/
theorem genSteps_frame (n : Nat) (s : State) :
    (genSteps n s).cfg = s.cfg ∧ (genSteps n s).ops = s.ops ∧ (genSteps n s).seq = s.seq ∧
      (genSteps n s).status = s.status ∧ (genSteps n s).res = s.res := by
  induction n generalizing s with
  | zero => exact ⟨rfl, rfl, rfl, rfl, rfl⟩
  | succ n ih => exact ih (genStep s)

theorem genSteps_seq (n : Nat) (s : State) (q : Sequencer) :
    genSteps n { s with seq := q } = { genSteps n s with seq := q } := by
  induction n generalizing s with
  | zero => rfl
  | succ n ih => exact ih (genStep s)

/-- Clearing the results and the error before generation steps or after them is all one. -/
theorem genSteps_cleared (n : Nat) (s : State) :
    genSteps n (clearError (clearResults s)) = clearError (clearResults (genSteps n s)) := by
  induction n generalizing s with
  | zero => rfl
  | succ n ih => exact ih (genStep s)

/-- A RUN phase is its generation steps, and then an EVAL phase with CHAIN, or the IDLE phase. -/
theorem microStep_iterate_run (n : Nat) (s : State) {r : Word} (e : Nat) (c : Bool) (hr : r.toNat = n + 1) :
    microStep^[n + 1] { s with seq := ⟨.run, r, e, c⟩ } =
      { genSteps (n + 1) s with seq := if c then ⟨.eval, 0, s.cfg.tEval, true⟩ else ⟨.idle, 0, e, false⟩ } := by
  induction n generalizing s r with
  | zero =>
    obtain rfl : r = 1 := BitVec.eq_of_toNat_eq hr
    exact microStep_run_last s e c
  | succ n ih =>
    have hne : r ≠ 1 := by
      rintro rfl
      simp at hr
    have hpred : (r - 1).toNat = n + 1 := by rw [toNat_pred r (by omega), hr, Nat.add_sub_cancel]
    rw [Function.iterate_succ_apply, microStep_run s r e c hne, ih (genStep s) hpred]
    rfl

/-- An EVAL phase is one `Evaluate`, for every countdown. -/
theorem microStep_iterate_eval (n : Nat) (s : State) (r : Word) (c : Bool) :
    microStep^[n + 1] { s with seq := ⟨.eval, r, n + 1, c⟩ } =
      { applyEvaluate (lowerSv s) with seq := ⟨.idle, r, 0, false⟩ } := by
  induction n generalizing s with
  | zero => exact microStep_eval_last s r c
  | succ n ih =>
    rw [Function.iterate_succ_apply, microStep_eval, ih (lowerSv s)]
    rfl

/-- `Evaluate` writes the error report whatever it was. -/
theorem applyEvaluate_clearError (s : State) : applyEvaluate (clearError s) = applyEvaluate s := by
  unfold applyEvaluate
  simp only [clearError_cfg, clearError_lfsr1, clearError_lfsr2, clearError_acc]
  cases evaluate s.cfg s.lfsr1.w.toNat s.lfsr2.w.toNat s.acc.c0.toNat s.acc.c1.toNat <;> rfl

/-- An accepted RUN with LEN of at least 1 is LEN generation steps. -/
theorem microStep_iterate_landRun {s : State} (hl : s.status.loaded = true) (h1 : 1 ≤ s.ops.len.toNat)
    (hn : s.steps.toNat + s.ops.len.toNat ≤ s.cfg.lmax) :
    microStep^[s.ops.len.toNat] (landOf .run (lowerSv s)) =
      { clearError (clearResults (genSteps s.ops.len.toNat s)) with seq := ⟨.idle, 0, s.seq.ecnt, false⟩ } := by
  have hland : landOf .run (lowerSv s) =
      { clearError (clearResults (lowerSv s)) with seq := ⟨.run, s.ops.len, s.seq.ecnt, false⟩ } := by
    have hne : (lowerSv s).ops.len.toNat ≠ 0 := Nat.ne_of_gt h1
    rw [landOf, landRun_of_passed (s := lowerSv s) hl hn, if_neg hne]
    rfl
  obtain ⟨n, hlen⟩ := Nat.exists_eq_add_of_le' h1
  rw [hland, hlen, microStep_iterate_run n _ _ _ hlen, genSteps_cleared, genSteps_lowerSv (by omega)]
  rfl

/-- An accepted EVAL is one `Evaluate`. -/
theorem microStep_iterate_landEval {s : State} (ht : 1 ≤ s.cfg.tEval) :
    microStep^[s.cfg.tEval] (landOf .eval (lowerSv s)) =
      { applyEvaluate (lowerSv s) with seq := ⟨.idle, s.seq.rem, 0, false⟩ } := by
  obtain ⟨n, hn⟩ := Nat.exists_eq_add_of_le' ht
  have hland : landOf .eval (lowerSv s) =
      { clearError (lowerSv s) with seq := ⟨.eval, s.seq.rem, n + 1, false⟩ } := by
    rw [← hn]
    rfl
  have hsv : lowerSv (clearError (lowerSv s)) = clearError (lowerSv s) := rfl
  rw [hland, hn, microStep_iterate_eval, hsv, applyEvaluate_clearError]

/-- What START leaves: the load effect, `n` generation steps and one `Evaluate` (R166). -/
def startOutcome (n : Nat) (s : State) : State :=
  { applyEvaluate (lowerSv (genSteps n (loadEffect s))) with seq := ⟨.idle, 0, 0, false⟩ }

theorem microStep_iterate_landStart {s : State} (hc : checkStart s.cfg s.ops = none) (ht : 1 ≤ s.cfg.tEval) :
    microStep^[s.ops.len.toNat + s.cfg.tEval] (landOf .start (lowerSv s)) = startOutcome s.ops.len.toNat s := by
  obtain ⟨-, h0, -⟩ := checkStart_none hc
  have hland : landOf .start (lowerSv s) = { loadEffect s with seq := ⟨.run, s.ops.len, s.seq.ecnt, true⟩ } :=
    landStart_of_passed (s := lowerSv s) hc
  obtain ⟨n, hlen⟩ := Nat.exists_eq_add_of_le' (one_le_toNat h0)
  obtain ⟨m, hteval⟩ := Nat.exists_eq_add_of_le' ht
  have hteval' : (loadEffect s).cfg.tEval = m + 1 := hteval
  rw [hland, Nat.add_comm, Function.iterate_add_apply, hlen, hteval, microStep_iterate_run n _ _ _ hlen, if_pos rfl,
    hteval', microStep_iterate_eval, startOutcome]

/-! ### RUN, EVAL and START are atomic (R173) -/

/-- RUN of at least one step, accepted, and a quiet host, in one piece. -/
theorem afterSteps_block_of_run {s : State} {rest : List PinSample} (hb : s.busy = false)
    (hl : s.status.loaded = true) (h1 : 1 ≤ s.ops.len.toNat) (hn : s.steps.toNat + s.ops.len.toNat ≤ s.cfg.lmax)
    (hin : s.inputs = pinsOfWord (encode .run) :: rest) (hq : quietInputs s.ops.len.toNat rest) :
    (afterSteps (s.ops.len.toNat + 1) s).block =
      { clearError (clearResults (genSteps s.ops.len.toNat s.block)) with seq := ⟨.idle, 0, s.seq.ecnt, false⟩ } := by
  rw [afterSteps_block_of_command (i := .run) hb (weField_packT39 ..) rfl hin hq]
  exact microStep_iterate_landRun (s := s.block) hl h1 hn

/-- EVAL and a quiet host, in one piece. -/
theorem afterSteps_block_of_eval {s : State} {rest : List PinSample} (hb : s.busy = false) (ht : 1 ≤ s.cfg.tEval)
    (hin : s.inputs = pinsOfWord (encode .eval) :: rest) (hq : quietInputs s.cfg.tEval rest) :
    (afterSteps (s.cfg.tEval + 1) s).block =
      { applyEvaluate (lowerSv s.block) with seq := ⟨.idle, s.seq.rem, 0, false⟩ } := by
  rw [afterSteps_block_of_command (i := .eval) hb (weField_packT39 ..) rfl hin hq]
  exact microStep_iterate_landEval (s := s.block) ht

/-- Settles O54: the generation steps of the RUN phase leave the status flags. -/
theorem runIsAtomicForAQuietHost : Obligations.RunIsAtomicForAQuietHost := by
  intro s rest hb hl h1 hn hin hq
  obtain ⟨-, -, -, hstatus, -⟩ := genSteps_frame s.ops.len.toNat s
  rw [afterSteps_block_of_run hb hl h1 hn hin hq, ← hstatus, ← genSteps_block]
  rfl

/-- `Evaluate` reads and writes neither the host's schedule nor the read data nor SV. -/
theorem applyEvaluate_block (s : State) : (applyEvaluate s).block = applyEvaluate s.block := by
  simp only [applyEvaluate, State.block_cfg, State.block_lfsr1, State.block_lfsr2, State.block_acc]
  cases evaluate s.cfg s.lfsr1.w.toNat s.lfsr2.w.toNat s.acc.c0.toNat s.acc.c1.toNat <;> rfl

theorem applyEvaluate_lowerSv (s : State) : applyEvaluate (lowerSv s) = lowerSv (applyEvaluate s) := by
  simp only [applyEvaluate, lowerSv_cfg, lowerSv_lfsr1, lowerSv_lfsr2, lowerSv_acc]
  cases evaluate s.cfg s.lfsr1.w.toNat s.lfsr2.w.toNat s.acc.c0.toNat s.acc.c1.toNat <;> rfl

/-- Settles O55: the `Evaluate` of the EVAL phase leaves LD, LC, LV. -/
theorem evalIsAtomicForAQuietHost : Obligations.EvalIsAtomicForAQuietHost := by
  intro s rest hb ht hin hq
  have hlast : (applyEvaluate s).last = s.last := by rw [(applyEvaluate_frame s).1]
  rw [afterSteps_block_of_eval hb ht hin hq, applyEvaluate_lowerSv, ← applyEvaluate_block, ← hlast]
  rfl

/-- START with passing checks and a quiet host, in one piece. -/
theorem afterSteps_block_of_start {s : State} {rest : List PinSample} (hb : s.busy = false)
    (hc : checkStart s.cfg s.ops = none) (ht : 1 ≤ s.cfg.tEval) (hin : s.inputs = pinsOfWord (encode .start) :: rest)
    (hq : quietInputs (s.ops.len.toNat + s.cfg.tEval) rest) :
    (afterSteps (s.ops.len.toNat + s.cfg.tEval + 1) s).block = startOutcome s.ops.len.toNat s.block := by
  rw [afterSteps_block_of_command (i := .start) hb (weField_packT39 ..) rfl hin hq]
  exact microStep_iterate_landStart (s := s.block) hc ht

/-- Settles O56: the state LOAD answers is the load effect. -/
theorem startIsAtomicForAQuietHost : Obligations.StartIsAtomicForAQuietHost := by
  intro s u rest hb hc h1 hn ht hu hin hq
  obtain rfl : loadEffect s = u := by
    rw [exec_of_idle (i := .load) (weField_packT39 ..) hb, landOf, landLoad_of_passed (s := s.settled) hc] at hu
    exact Host.Outcome.next.inj hu
  have hload : loadEffect s.block = (loadEffect s).block := rfl
  rw [afterSteps_block_of_start hb (checkStart_eq_none hc h1 hn) ht hin hq, applyEvaluate_block, startOutcome, hload,
    ← genSteps_block]
  rfl

/-! ### What START depends on (R174) -/

/-- The state with BUSYWR set to a value. -/
def withBusywr (b : Bool) (s : State) : State := { s with status := { s.status with busywr := b } }

theorem genSteps_withBusywr (n : Nat) (b : Bool) (s : State) :
    genSteps n (withBusywr b s) = withBusywr b (genSteps n s) := by
  induction n generalizing s with
  | zero => rfl
  | succ n ih => exact ih (genStep s)

theorem applyEvaluate_withBusywr (b : Bool) (s : State) :
    applyEvaluate (withBusywr b s) = withBusywr b (applyEvaluate s) := by
  simp only [applyEvaluate, withBusywr]
  cases evaluate s.cfg s.lfsr1.w.toNat s.lfsr2.w.toNat s.acc.c0.toNat s.acc.c1.toNat <;> rfl

/-- A load sets every element but the operands, the sequencer and BUSYWR from the operands and the parameters. -/
theorem loadEffect_of_operands {s s' : State} (hcfg : s.cfg = s'.cfg) (hops : s.ops = s'.ops) :
    loadEffect s.block = { withBusywr s.status.busywr (loadEffect s'.block) with seq := s.seq } := by
  simp only [loadEffect, withBusywr, State.block, hcfg, hops]
  rfl

/-- What START leaves is a function of the operands and the parameters, but for BUSYWR, which every part of it keeps. -/
theorem startOutcome_of_operands (n : Nat) {s s' : State} (hcfg : s.cfg = s'.cfg) (hops : s.ops = s'.ops) :
    startOutcome n s.block = withBusywr s.status.busywr (startOutcome n s'.block) := by
  have hsv (t : State) : lowerSv { withBusywr s.status.busywr t with seq := s.seq } =
      { withBusywr s.status.busywr (lowerSv t) with seq := s.seq } := rfl
  simp only [startOutcome]
  rw [loadEffect_of_operands hcfg hops, genSteps_seq, genSteps_withBusywr, hsv, applyEvaluate_seq,
    applyEvaluate_withBusywr]
  rfl

/-- Settles O57: both blocks are the outcome of the same START but for BUSYWR; a failed check is a rejection. -/
theorem startForgetsEverythingButOperands : Obligations.StartForgetsEverythingButOperands := by
  intro s s' rest rest' hb hb' hcfg hops ht hin hin' hq hq'
  constructor
  · intro hc
    have hblock' :
        (afterSteps (s.ops.len.toNat + s.cfg.tEval + 1) s').block = startOutcome s.ops.len.toNat s'.block := by
      simp only [hcfg, hops] at hc ht hq' ⊢
      exact afterSteps_block_of_start hb' hc ht hin' hq'
    calc (afterSteps (s.ops.len.toNat + s.cfg.tEval + 1) s).block
        = startOutcome s.ops.len.toNat s.block := afterSteps_block_of_start hb hc ht hin hq
      _ = withBusywr s.status.busywr (startOutcome s.ops.len.toNat s'.block) := startOutcome_of_operands _ hcfg hops
      _ = withBusywr s.status.busywr (afterSteps (s.ops.len.toNat + s.cfg.tEval + 1) s').block := by rw [hblock']
  · intro e he
    have hq0 (rest : List PinSample) : quietInputs 0 rest := by simp [quietInputs]
    constructor
    · rw [afterSteps_block_of_command (i := .start) hb (weField_packT39 ..) rfl hin (hq0 rest)]
      exact landOf_of_rejection (i := .start) he
    · have he' : checkStart s'.cfg s'.ops = some e := hcfg ▸ hops ▸ he
      rw [afterSteps_block_of_command (i := .start) hb' (weField_packT39 ..) rfl hin' (hq0 rest')]
      exact landOf_of_rejection (i := .start) he'

/-! ### The two laws of R175 -/

theorem quietInputs_zero (ins : List PinSample) : quietInputs 0 ins := by
  simp [quietInputs]

theorem quietInputs_scriptIdle (n : Nat) (ins : List PinSample) : quietInputs n (scriptIdle n ++ ins) := by
  intro p hp
  rw [List.take_left' (by simp [scriptIdle])] at hp
  obtain rfl := List.eq_of_mem_replicate hp
  exact ⟨rfl, nofun⟩

/-- LOAD with a passing check. -/
theorem afterSteps_block_of_load {s : State} {rest : List PinSample} (hb : s.busy = false)
    (hc : checkConfig s.cfg s.ops = none) (hin : s.inputs = pinsOfWord (encode .load) :: rest) :
    (afterSteps 1 s).block = loadEffect s.block := by
  rw [afterSteps_block_of_command (i := .load) (n := 0) hb (weField_packT39 ..) rfl hin (quietInputs_zero rest)]
  exact landLoad_of_passed (s := lowerSv s.block) hc

/-- A load has cleared the results and the error, so RUN need not. -/
theorem cleared_genSteps_loadEffect (n : Nat) (s : State) :
    clearError (clearResults (genSteps n (loadEffect s))) = genSteps n (loadEffect s) := by
  rw [← genSteps_cleared]
  rfl

/-- LOAD, RUN and EVAL one after the other, each waited for, leave the outcome of START. -/
theorem afterSteps_block_of_load_run_eval {s : State} {rest : List PinSample} (hb : s.busy = false)
    (hc : checkConfig s.cfg s.ops = none) (h1 : 1 ≤ s.ops.len.toNat) (hn : s.ops.len.toNat ≤ s.cfg.lmax)
    (ht : 1 ≤ s.cfg.tEval)
    (hin : s.inputs = pinsOfWord (encode .load) :: pinsOfWord (encode .run) ::
      (scriptIdle s.ops.len.toNat ++ pinsOfWord (encode .eval) :: (scriptIdle s.cfg.tEval ++ rest))) :
    (afterSteps (1 + (s.ops.len.toNat + 1) + (s.cfg.tEval + 1)) s).block = startOutcome s.ops.len.toNat s.block := by
  have hload := afterSteps_block_of_load hb hc hin
  have hcfg1 : (afterSteps 1 s).cfg = s.cfg := by simpa using congrArg State.cfg hload
  have hops1 : (afterSteps 1 s).ops = s.ops := by simpa using congrArg State.ops hload
  have hsteps1 : (afterSteps 1 s).steps = 0 := by simpa using congrArg State.steps hload
  have hl1 : (afterSteps 1 s).status.loaded = true := by simpa using congrArg (fun t => t.status.loaded) hload
  have hb1 : (afterSteps 1 s).busy = false := (congrArg State.busy hload).trans hb
  have hin1 := (afterSteps_inputs 1 s).trans (congrArg (List.drop 1) hin)
  have hrun := afterSteps_block_of_run hb1 hl1 (hops1 ▸ h1) (by simpa [hcfg1, hops1, hsteps1] using hn) hin1
    (by rw [hops1]; exact quietInputs_scriptIdle _ _)
  rw [hops1, hload, cleared_genSteps_loadEffect, ← afterSteps_add] at hrun
  obtain ⟨hcfg, -⟩ := genSteps_frame s.ops.len.toNat (loadEffect s.block)
  have hcfg2 : (afterSteps (1 + (s.ops.len.toNat + 1)) s).cfg = s.cfg := (congrArg State.cfg hrun :).trans hcfg
  have hb2 : (afterSteps (1 + (s.ops.len.toNat + 1)) s).busy = false := (congrArg State.busy hrun :)
  have hrem2 : (afterSteps (1 + (s.ops.len.toNat + 1)) s).seq.rem = 0 := (congrArg (fun t => t.seq.rem) hrun :)
  have hin2 : (afterSteps (1 + (s.ops.len.toNat + 1)) s).inputs =
      pinsOfWord (encode .eval) :: (scriptIdle s.cfg.tEval ++ rest) := by
    rw [afterSteps_inputs, hin, Nat.add_comm, List.drop_succ_cons, List.drop_succ_cons,
      List.drop_left' (by simp [scriptIdle])]
  have heval := afterSteps_block_of_eval hb2 (hcfg2 ▸ ht) hin2 (by rw [hcfg2]; exact quietInputs_scriptIdle _ _)
  have hsv (t : State) (q : Sequencer) : lowerSv { t with seq := q } = { lowerSv t with seq := q } := rfl
  rw [hcfg2, hrem2, hrun, hsv, applyEvaluate_seq, ← afterSteps_add] at heval
  exact heval

/-- Settles O58: both scripts leave the outcome of START. -/
theorem startEqualsLoadRunEval : Obligations.StartEqualsLoadRunEval := by
  intro s hb hc h1 hn ht
  have hstart := afterSteps_block_of_start
    (s := { s with inputs := scriptCmd .start ++ scriptIdle (s.ops.len.toNat + s.cfg.tEval) })
    hb (checkStart_eq_none hc h1 hn) ht rfl (by simpa using quietInputs_scriptIdle _ [])
  have hthree := afterSteps_block_of_load_run_eval (rest := [])
    (s := { s with
      inputs := scriptCmd .load ++ scriptCmd .run ++ scriptIdle s.ops.len.toNat ++ scriptCmd .eval ++
        scriptIdle s.cfg.tEval })
    hb hc h1 hn ht (by simp [scriptCmd])
  rw [show 1 + s.ops.len.toNat + s.cfg.tEval = s.ops.len.toNat + s.cfg.tEval + 1 by omega,
    show 1 + 1 + s.ops.len.toNat + 1 + s.cfg.tEval = 1 + (s.ops.len.toNat + 1) + (s.cfg.tEval + 1) by omega]
  exact hstart.trans hthree.symm

/-- `n + 1` STEP commands in a row are `n + 1` generation steps, with the results and the error cleared (R168). -/
theorem afterSteps_block_of_steps (n : Nat) {s : State} (hb : s.busy = false) (hl : s.status.loaded = true)
    (hn : s.steps.toNat + (n + 1) ≤ s.cfg.lmax) (hlmax : s.cfg.lmax < 2 ^ 32)
    (hin : s.inputs = (List.replicate (n + 1) (scriptCmd .step)).flatten) :
    (afterSteps (n + 1) s).block = clearError (clearResults (genSteps (n + 1) s.block)) := by
  have hland (t : State) (hl : t.status.loaded = true) (hn : t.steps.toNat + 1 ≤ t.cfg.lmax) :
      landOf .step (lowerSv t) = clearError (clearResults (genStep t)) := landStep_of_passed (s := lowerSv t) hl hn
  rw [List.replicate_succ, List.flatten_cons] at hin
  induction n generalizing s with
  | zero =>
    rw [afterSteps_block_of_command (i := .step) (n := 0) hb (weField_packT39 ..) rfl hin (quietInputs_zero _)]
    exact hland s.block hl hn
  | succ n ih =>
    have hstep := step_of_command (i := .step) hb (weField_packT39 ..) rfl hin
    have hn1 : s.steps.toNat + 1 ≤ s.cfg.lmax := by omega
    rw [hland (takePins s) hl hn1] at hstep
    have hsteps : (s.steps + 1).toNat = s.steps.toNat + 1 := toNat_succ _ (by omega)
    have hrest := (inputs_of_step hstep).trans (congrArg List.tail hin)
    have hn2 : (s.steps + 1).toNat + (n + 1) ≤ s.cfg.lmax := by omega
    have hblock : (clearError (clearResults (genStep (takePins s)))).block =
        clearError (clearResults (genStep s.block)) := rfl
    rw [afterSteps_succ (n + 1) hstep, ih (s := clearError (clearResults (genStep (takePins s)))) hb hl hn2 hlmax hrest,
      hblock, genSteps_cleared, genSteps_succ (n + 1)]
    rfl

/-- Settles O59: both leave the generation steps, cleared, and the sequencer a sound idle block has. -/
theorem stepsEqualOneRun : Obligations.StepsEqualOneRun := by
  intro s hi hb hl h1 hn
  obtain ⟨⟨-, ⟨-, hlmax⟩, -⟩, -, hq, -⟩ := (inv_iff s).1 hi
  have hseq : s.seq = Sequencer.zero := hq.seq_of_idle ((busy_eq_false_iff s).1 hb)
  have hlmax32 : s.cfg.lmax < 2 ^ 32 := by omega
  obtain ⟨n, hlen⟩ := Nat.exists_eq_add_of_le' h1
  have hsteps := afterSteps_block_of_steps n
    (s := { s with inputs := (List.replicate (n + 1) (scriptCmd .step)).flatten }) hb hl (hlen ▸ hn) hlmax32 rfl
  have hrun := afterSteps_block_of_run (s := { s with inputs := scriptCmd .run ++ scriptIdle s.ops.len.toNat })
    hb hl h1 hn rfl (by simpa using quietInputs_scriptIdle _ [])
  obtain ⟨-, -, hframe, -⟩ := genSteps_frame (n + 1) s.block
  have hidle : (⟨.idle, 0, s.seq.ecnt, false⟩ : Sequencer) = (genSteps (n + 1) s.block).seq := by
    rw [hframe, State.block_seq, hseq]
    rfl
  rw [Nat.add_comm 1]
  refine Eq.trans ?_ hrun.symm
  simp only [hlen, hidle]
  exact hsteps

end Sys2Proof.Machine
end

/-! ## A newly reported error (60_exceptions.md R190, R195) -/

section
namespace Sys2Proof.Machine

/-- A landing write that no check rejects reports no error. -/
theorem Lands.err_of_passed {s t : State} {i : Instr} (h : Lands s i t) (hr : rejectionOf s i = none)
    (hs : s.status.err = false) : t.status.err = false := by
  cases h with
  | rejected he => cases he.symm.trans hr
  | nop | write => exact hs
  | load | start | step | runOfNone | run | eval | clear => rfl

/-- An instruction with no check that fails is one of the table: CMD.ILLEGAL always fails its check. -/
theorem wf_of_passed {s : State} {i : Instr} (hcmd : ∀ v, i ≠ .wr cmdNo v) (hr : rejectionOf s i = none) :
    i.wf = true := by
  cases i with
  | cmdIllegal v => cases hr
  | wr a v =>
    have ha : a ≠ cmdNo := by rintro rfl; exact hcmd v rfl
    simpa [Instr.wf] using ha
  | nop | start | load | step | run | eval | clear | rd => rfl

/-- An instruction of the IDLE phase that no check rejects reports no error. -/
theorem err_of_exec_passed {i : Instr} {s t : State} (hcmd : ∀ v, i ≠ .wr cmdNo v) (hb : s.busy = false)
    (hr : rejectionOf s i = none) (hs : s.status.err = false) (h : exec i s = .next t) : t.status.err = false := by
  obtain hw | ⟨a, rfl⟩ := weField_encode_or_rd i
  · rw [exec_of_idle hw hb] at h
    cases h
    exact (landOf_lands i s.settled hw (wf_of_passed hcmd hr)).err_of_passed ((rejectionOf_settled s i).trans hr) hs
  · rw [exec_rd, hb] at h
    cases h
    exact hs

/-- An error newly reported in the IDLE phase is that of a check that failed, and the report is all that happened
(R195 (a)). -/
theorem rejection_of_new_error {i : Instr} {s t : State} (hcmd : ∀ v, i ≠ .wr cmdNo v) (hb : s.busy = false)
    (hs : s.status.err = false) (h : exec i s = .next t) (ht : t.status.err = true) :
    ∃ e, rejectionOf s i = some e ∧ t = s.rejected e.cause e.einfo := by
  obtain hr | ⟨e, he⟩ := Option.eq_none_or_eq_some (rejectionOf s i)
  · have hno := err_of_exec_passed hcmd hb hr hs h
    cases ht.symm.trans hno
  · rw [exec_of_rejection hb he] at h
    cases h
    exact ⟨e, he, rfl⟩

/-- No data written to CMD selects a write to CMD. -/
theorem decodeCommand_ne_wr_cmdNo (v w : Word) : decodeCommand v ≠ .wr cmdNo w := by
  intro h
  have hwf := decodeCommand_wf v
  simp [h, Instr.wf] at hwf

/-- The causes of the two checks that STEP and RUN share: not loaded, then too long (R168, R169). -/
theorem cause_of_state_then_length {notLoaded tooLong : Prop} [Decidable notLoaded] [Decidable tooLong] {e : Raised}
    (h : (if notLoaded then some ⟨.eState, 0⟩ else if tooLong then some ⟨.eLen, 0⟩ else none) = some e) :
    e.cause = .eState ∨ e.cause = .eLen := by
  split_ifs at h
  · cases h
    exact .inl rfl
  · cases h
    exact .inr rfl

/-- Settles O35: the error is that of a failed check, whose cause is read off `rejectionOf`; a write to CMD is the
command it selects. -/
theorem rejectedCommandChangesOnlyTheReport : Obligations.RejectedCommandChangesOnlyTheReport := by
  intro i s t hb hs h ht
  by_cases hwr : ∃ v, i = .wr cmdNo v
  · obtain ⟨v, rfl⟩ := hwr
    rw [exec_wr_cmd] at h
    obtain ⟨e, -, rfl⟩ := rejection_of_new_error (decodeCommand_ne_wr_cmdNo v) hb hs h ht
    exact ⟨rfl, rfl, h⟩
  · obtain ⟨e, he, rfl⟩ := rejection_of_new_error (not_exists.1 hwr) hb hs h ht
    refine ⟨rfl, ?_⟩
    cases i with
    | cmdIllegal v =>
      cases he
      rfl
    | load => exact checkConfig_cause he
    | start => exact checkStart_cause he
    | step | run => exact cause_of_state_then_length he
    | nop | eval | clear | wr | rd => cases he

end Sys2Proof.Machine
end

/-! ## Reset and dropped writes (70_reset_and_hazards.md R220, R225) -/

section
namespace Sys2Proof.Machine

/-- Settles O10: such an edge is `resetEdge`, whatever the phase and the transaction; its read data is the pin of R56. -/
theorem resetWinsOverEverything : Obligations.ResetWinsOverEverything := by
  intro s hr
  have hread : hRdataPin s (nextPins s) =
      if (nextPins s).hValid ∧ (nextPins s).hWe = false then readReg s (nextPins s).hAddr else 0 := by
    simp [hRdataPin]
  rw [step_of_rst s hr, ← hread]
  rfl

/-- A micro-step neither reads nor writes BUSYWR. -/
theorem microStep_withBusywr (b : Bool) (s : State) : microStep (withBusywr b s) = withBusywr b (microStep s) := by
  have hseq : (withBusywr b s).seq = s.seq := rfl
  cases hp : s.seq.phase with
  | idle =>
    simp only [microStep, hseq, hp]
    rfl
  | run =>
    simp only [microStep, hseq, hp]
    rfl
  | eval =>
    have hsv : lowerSv (withBusywr b s) = withBusywr b (lowerSv s) := rfl
    simp only [microStep, hseq, hp, evalEdge, hsv, applyEvaluate_withBusywr]
    split <;> rfl

/-- A busy edge with a write starts its micro-step where the edge without a transaction does, but for BUSYWR. -/
theorem busyStart_of_write {s : State} (hv : (nextPins s).hValid = true) (hw : (nextPins s).hWe = true) :
    busyStart s = withBusywr true (takePins s) := by
  simp [busyStart, withBusywr, takePins, hRdataPin, hv, hw]

/-- Settles O17: the two edges run the same micro-step, which neither reads nor writes BUSYWR. -/
theorem droppedWriteDisturbsNothing : Obligations.DroppedWriteDisturbsNothing := by
  intro s hb hr hv hw
  have hdropped : step s = .next (withBusywr true (microStep (takePins s))) := by
    rw [step_of_busy s hb hr, busyStart_of_write hv hw, microStep_withBusywr]
  exact ⟨microStep (takePins s), step_of_nothing { s with inputs := idlePins :: s.inputs.tail } rfl rfl, hdropped⟩

end Sys2Proof.Machine
end
